-- ==== Sys2Proof/Word.lean ====
section
/-! DEFINITION. The word type: the byte of the packet (10_state.md R21). Durations and timestamps are natural numbers of
ticks, unbounded (00_scope.md R12, 10_state.md R21; log 12), and are written Nat. -/

namespace Sys2Proof

/-- An unsigned 8-bit value, bits numbered 7 down to 0 (00_scope.md section 4.1). -/
abbrev Byte := BitVec 8

end Sys2Proof
end

