-- ==== Sys2Proof/Syntax.lean ====
section
/-! DEFINITION. The operations (30_encoding.md R82), one constructor per row of spec/opcode_table.json, and the two
input ports they are presented on (R81, R83). -/

namespace Sys2Proof

/-- The level of a line (00_scope.md section 4.1); stored as Off = 0, On = 1 (10_state.md R21). -/
inductive Level where
  | off
  | on
deriving DecidableEq, Repr, Inhabited

/-- The 4-byte signature, a sequence of four bytes and not a 32-bit integer (20_memory.md R55). -/
structure Sig where
  b0 : Byte
  b1 : Byte
  b2 : Byte
  b3 : Byte
deriving DecidableEq, Repr, Inhabited

/-- A packet (30_encoding.md R70): `pay` is the ciphered payload, `chk` the checksum of the plaintext. -/
structure Packet where
  sig : Sig
  len : Byte
  pay : List Byte
  chk : Byte
deriving DecidableEq, Repr, Inhabited

/-- One constructor per row of spec/opcode_table.json, in the table's order. Operands as in 30_encoding.md R83. -/
inductive Instr where
  -- CMD: host commands
  | encode (payload : List Byte)
  | modulate
  | replay (seq : List Nat)
  | cancel
  | resAck
  | reset
  -- EVT: input events
  | edge (ts : Nat) (lvl : Level)
  | idleCheck (now : Nat)
  | sample (now : Nat) (lvl : Level)
  | emitDone
  | emitFail
  -- AUTO: the block's own step
  | txStep
  -- FUNC: internal units
  | demodulate (seq : List Nat)
  | decode (pre : Nat) (samples : List Nat)
  -- OUT: the output transaction
  | emit (level : Level) (dur : Nat)
  -- reserved codes (R84)
  | cmdReserved (op : BitVec 4)
  | evtReserved (ev : BitVec 3)
  -- WIRE: the packet and the three wire symbols (R71, R75)
  | packet (pkt : Packet)
  | start
  | bit0
  | bit1
deriving DecidableEq, Repr

/-- The formats of operations (30_encoding.md R81); `wire` is the format opcode_table.json gives the rows of R71 and
R75. -/
inductive Format where
  | cmd
  | evt
  | auto
  | func
  | out
  | wire
deriving DecidableEq, Repr

/-- The format of an operation (30_encoding.md R82). -/
def formatOf : Instr → Format
  | .encode _ => .cmd
  | .modulate => .cmd
  | .replay _ => .cmd
  | .cancel => .cmd
  | .resAck => .cmd
  | .reset => .cmd
  | .edge _ _ => .evt
  | .idleCheck _ => .evt
  | .sample _ _ => .evt
  | .emitDone => .evt
  | .emitFail => .evt
  | .txStep => .auto
  | .demodulate _ => .func
  | .decode _ _ => .func
  | .emit _ _ => .out
  | .cmdReserved _ => .cmd
  | .evtReserved _ => .evt
  | .packet _ => .wire
  | .start => .wire
  | .bit0 => .wire
  | .bit1 => .wire

/-- What stands on an input port when the environment presents an operation: the code and the operand ports of its
format (30_encoding.md R81, R83). No operand is packed into the code. -/
inductive Input where
  /-- The command port: `op[3:0]`, the payload port and the sequence port. -/
  | command (op : BitVec 4) (payload : List Byte) (seq : List Nat)
  /-- The event port: `ev[2:0]`, the time port (`ts` or `now`) and the level port. -/
  | event (ev : BitVec 3) (time : Nat) (level : Level)
deriving DecidableEq, Repr

end Sys2Proof
end

