-- ==== Sys2Proof/Config.lean ====
section
/-! DEFINITION. The configuration CFG (00_scope.md R8, 10_state.md R22) and the free values: what the spec leaves to
the implementation has no body here, so nothing can be proved of it. -/

namespace Sys2Proof

/-- A capacity: a positive number, or `none`, the spec's "infinite" (00_scope.md R8). -/
def positiveOrInfinite (cap : Option Nat) : Bool :=
  match cap with
  | none => true
  | some n => decide (0 < n)

/-- The length of one tick: a positive real number of seconds (00_scope.md R8, R12). The default only shows that there
is one (log 12). -/
structure TickLength where
  seconds : ℝ := 1
  pos : 0 < seconds := by norm_num
deriving Inhabited

/-- Free value: the length of the tick with the number `n`. A configuration is plain data, which no real number is, so it
holds a number and this constant says which positive real that is (00_scope.md R8; log 12). -/
opaque Config.tickLength : Nat → TickLength

/-- The complete configuration of the block (00_scope.md R8), each field of the type R8 gives it: the positive fields
carry their positivity. DESIGN CHOICE: 10_state.md R22 types RX_END_PERIOD as a `Nat` and RX_CAP and RAW_CAP as a `Nat`
or infinite, 0 included; the model takes the narrower types of R8 (log 20). The relations between fields are no part of
the type (93_implementation_defined.md U12): `CfgOK`. Read-only: no operation writes it (R22). The defaults of
IDLE_LEVEL, RX_CAP and RAW_CAP are the spec's (92_eei_decisions.md, "Parameters left OPEN, collected"); the other
defaults only show that a configuration exists (log 18). -/
structure Cfg where
  signature : Sig
  cipherKey : Vector Byte 16
  tUnit : Nat := 1
  shortUnits : Nat := 1
  longUnits : Nat := 1
  preUnits : Nat := 1
  idleLevel : Level := .off
  rxRejectPeriod : Nat
  rxEndPeriod : Nat := 1
  minRxBytes : Nat
  rxCap : Option Nat := none
  rawCap : Option Nat := none
  /-- Names the length of one tick, `Cfg.tickSeconds`; no rule depends on it (R12; log 12). -/
  tick : Nat := 0
  tUnit_pos : 0 < tUnit := by decide
  shortUnits_pos : 0 < shortUnits := by decide
  longUnits_pos : 0 < longUnits := by decide
  preUnits_pos : 0 < preUnits := by decide
  rxEndPeriod_pos : 0 < rxEndPeriod := by decide
  rxCap_pos : positiveOrInfinite rxCap = true := by decide
  rawCap_pos : positiveOrInfinite rawCap = true := by decide
deriving DecidableEq, Repr, Inhabited

/-- TICK: the length of one tick in seconds, any positive real (00_scope.md R8). -/
def Cfg.tickSeconds (c : Cfg) : ℝ := (Config.tickLength c.tick).seconds

/-- The parameters the instance was built with: any configuration of the types above. The spec gives no value for any
of them (00_scope.md R8, 93_implementation_defined.md U13), so this is an opaque constant (log 1). -/
opaque Config.built : Cfg

/-- Free value: the four bytes `res_sig` holds after a hand-off that did not decode (10_state.md R37: "no defined
value"), as a function of the draw's number and of the bytes it held before (log 6). -/
opaque Config.freeSig : Nat → Sig → Sig

/-- Free value: what `res_len` holds after a hand-off that did not decode (10_state.md R37; log 6). -/
opaque Config.freeLen : Nat → Byte → Byte

/-- Free value: what `res_pay` holds after a hand-off that did not decode (10_state.md R37; log 6). -/
opaque Config.freePay : Nat → List Byte → List Byte

end Sys2Proof
end

