-- ==== Sys2Proof/WellFormed.lean ====
section
/-! DEFINITION. Which operation terms denote an operation of the spec, and which configurations are well formed. -/

namespace Sys2Proof

/-- Command codes `0x0` and `0x7` to `0xF` are reserved (30_encoding.md R84). -/
def reservedCommand (op : BitVec 4) : Bool :=
  op == 0x0#4 || decide (0x7#4 ≤ op)

/-- Event codes `0x0`, `0x6`, `0x7` are reserved (30_encoding.md R84). -/
def reservedEvent (ev : BitVec 3) : Bool :=
  ev == 0x0#3 || decide (0x6#3 ≤ ev)

/-- The invariant of a well-formed packet, `length == |payload|` (30_encoding.md R72). -/
def Packet.wellFormed (p : Packet) : Bool :=
  p.pay.length == p.len.toNat

/-- The operand constraints of 30_encoding.md R83 and R84, 41_bit_modulator.md R127 and R139. An over-long payload and
a bad REPLAY sequence are legal operands: the operation answers them (R83). -/
def wellFormed : Instr → Bool
  | .encode _ => true
  | .modulate => true
  | .replay _ => true
  | .cancel => true
  | .resAck => true
  | .reset => true
  | .edge _ _ => true
  | .idleCheck _ => true
  | .sample _ _ => true
  | .emitDone => true
  | .emitFail => true
  | .txStep => true
  | .demodulate seq => !seq.isEmpty
  | .decode _ _ => true
  | .emit _ dur => decide (0 < dur)
  | .cmdReserved op => reservedCommand op
  | .evtReserved ev => reservedEvent ev
  | .packet p => p.wellFormed
  | .start => true
  | .bit0 => true
  | .bit1 => true

/-- `n` elements fit in a buffer of capacity `cap` (`none`: infinite). -/
def fitsCap (cap : Option Nat) (n : Nat) : Bool :=
  match cap with
  | none => true
  | some c => decide (n ≤ c)

/-- `CfgOK(CFG)` (00_scope.md R9): premises of the round-trip property, not checks the hardware makes. -/
structure CfgOK (c : Cfg) : Prop where
  tUnit_pos : 1 ≤ c.tUnit
  short_pos : 1 ≤ c.shortUnits
  short_lt_long : c.shortUnits < c.longUnits
  pre_pos : 1 ≤ c.preUnits
  pre_ne_short : c.preUnits ≠ c.shortUnits
  pre_ne_long : c.preUnits ≠ c.longUnits
  reject_lt_short : c.rxRejectPeriod < c.shortUnits * c.tUnit
  reject_lt_pre : c.rxRejectPeriod < c.preUnits * c.tUnit
  long_le_end : c.longUnits * c.tUnit ≤ c.rxEndPeriod
  pre_le_end : c.preUnits * c.tUnit ≤ c.rxEndPeriod
  min_le : c.minRxBytes ≤ 48
  rxCap_ge : fitsCap c.rxCap 2088 = true

end Sys2Proof
end

