-- ==== Sys2Proof/Decode.lean ====
section
/-! DEFINITION. From port codes to operations and back (30_encoding.md R81 to R84). Both code spaces are full: every
4-bit command code and every 3-bit event code selects an operation, the reserved ones CMD_RESERVED and EVT_RESERVED.
The operations of formats AUTO, FUNC, OUT and WIRE have no code. -/

namespace Sys2Proof

/-- The command port (30_encoding.md R82, the CMD rows, and R84). An operand port the selected operation does not
have is not read. -/
def decodeCommand (op : BitVec 4) (payload : List Byte) (seq : List Nat) : Instr :=
  match op.toNat with
  | 1 => .encode payload
  | 2 => .modulate
  | 3 => .replay seq
  | 4 => .cancel
  | 5 => .resAck
  | 6 => .reset
  | _ => .cmdReserved op

/-- The event port (30_encoding.md R82, the EVT rows, and R84). -/
def decodeEvent (ev : BitVec 3) (time : Nat) (level : Level) : Instr :=
  match ev.toNat with
  | 1 => .edge time level
  | 2 => .idleCheck time
  | 3 => .sample time level
  | 4 => .emitDone
  | 5 => .emitFail
  | _ => .evtReserved ev

/-- The operation an input port presentation selects. -/
def decode : Input → Instr
  | .command op payload seq => decodeCommand op payload seq
  | .event ev time level => decodeEvent ev time level

/-- The presentation that selects an operation; `none` for the formats that have no code (30_encoding.md R81). Ports
an operation does not read are left empty, 0 and Off. -/
def encode : Instr → Option Input
  | .encode payload => some (.command 0x1#4 payload [])
  | .modulate => some (.command 0x2#4 [] [])
  | .replay seq => some (.command 0x3#4 [] seq)
  | .cancel => some (.command 0x4#4 [] [])
  | .resAck => some (.command 0x5#4 [] [])
  | .reset => some (.command 0x6#4 [] [])
  | .edge ts lvl => some (.event 0x1#3 ts lvl)
  | .idleCheck now => some (.event 0x2#3 now .off)
  | .sample now lvl => some (.event 0x3#3 now lvl)
  | .emitDone => some (.event 0x4#3 0 .off)
  | .emitFail => some (.event 0x5#3 0 .off)
  | .cmdReserved op => some (.command op [] [])
  | .evtReserved ev => some (.event ev 0 .off)
  | .txStep => none
  | .demodulate _ => none
  | .decode _ _ => none
  | .emit _ _ => none
  | .packet _ => none
  | .start => none
  | .bit0 => none
  | .bit1 => none

/-- The two input ports (30_encoding.md R81). -/
inductive Port where
  | command
  | event
deriving DecidableEq, Repr

/-- Why a number is no code of a port. -/
inductive Reject where
  /-- The number has a bit the port does not have: `op` is 4 bits wide, `ev` 3 bits (30_encoding.md R81). -/
  | wordTooWide (port : Port)
deriving DecidableEq, Repr

/-- A code word given as a number, with empty operand ports, put on a port; total, rejecting by name. -/
def present (p : Port) (w : Nat) : Except Reject Input :=
  match p with
  | .command => if w < 16 then .ok (.command (BitVec.ofNat 4 w) [] []) else .error (.wordTooWide .command)
  | .event => if w < 8 then .ok (.event (BitVec.ofNat 3 w) 0 .off) else .error (.wordTooWide .event)

/-- The port a row of spec/opcode_table.json is read on. Command and event codes overlap as numbers and the table's
words do not say their port: a word of at most 3 bits is read on the event port, any wider one (the host asks in whole
bytes) on the command port (log 13). -/
def tablePort (nbits : Nat) : Port :=
  if nbits ≤ 3 then .event else .command

/-- The presentation that a word of spec/opcode_table.json stands for, or none where the port has no such code. -/
def tableInput (nbits w : Nat) : Option Input :=
  match present (tablePort nbits) w with
  | .ok x => some x
  | .error _ => none

/-- The operation the decoder reads from a word of spec/opcode_table.json; the operand ports hold nothing, 0 and Off. -/
def decodeTableWord (nbits w : Nat) : Option Instr :=
  match tableInput nbits w with
  | some x => some (decode x)
  | none => none

end Sys2Proof
end

