-- ==== Sys2Proof/Machine/State.lean ====
section
/-! DEFINITION. The state of the block (10_state.md R20 to R47), the outcomes' reasons, and the state after reset. -/

namespace Sys2Proof.Machine

/-- `tx_state` (10_state.md R26); the code 3 is never written and has no constructor (30_encoding.md R86). -/
inductive TxState where
  | idle
  | active
  | fault
deriving DecidableEq, Repr

/-- `tx_src` (10_state.md R28). -/
inductive TxSrc where
  | packet
  | raw
deriving DecidableEq, Repr

/-- `rx_state` (10_state.md R30); the code 3 is never written and has no constructor (30_encoding.md R86). -/
inductive RxState where
  | idle
  | awaitingPreamble
  | receiving
deriving DecidableEq, Repr

/-- The status codes (30_encoding.md R85). -/
inductive Status where
  | ok
  | payloadTooLarge
  | malformedBitstream
  | truncatedFrame
  | signatureMismatch
  | checksumMismatch
  | busy
  | noPacket
  | badSequence
  | illegalCommand
  | driverFault
deriving DecidableEq, Repr

/-- The four ways Decode fails (43_decoder.md R188). -/
inductive DecodeError where
  | malformedBitstream
  | truncatedFrame
  | signatureMismatch
  | checksumMismatch
deriving DecidableEq, Repr

/-- What Decode returns (43_decoder.md R187): the triple, or an error with nothing of the frame's content. -/
inductive DecodeResult where
  | ok (sig : Sig) (len : Byte) (pay : List Byte)
  | error (e : DecodeError)
deriving DecidableEq, Repr

/-- An entry of the output history (30_encoding.md R90, 60_exceptions.md R215, R216). -/
inductive Event where
  | emit (level : Level) (dur : Nat)
  | emitCancel
  | txDone
  /-- `TxFault(DriverFault)`; the status it carries is always DriverFault (30_encoding.md R85). -/
  | txFault (st : Status)
  /-- `FrameOut`: signature, length and payload are present only when the result is Ok (30_encoding.md R90). -/
  | frameOut (r : DecodeResult) (pre : Nat) (samples : List Nat) (lastLevel : Level)
  /-- A host command with its answer (60_exceptions.md R216; log 3). -/
  | command (c : Instr) (st : Status)
deriving DecidableEq, Repr

/-- The value returned by an internal unit invoked on its own (log 8): the model's own, not the spec's. -/
inductive FnOut where
  | none
  | bytes (b : List Byte)
  | malformed
  | decoded (r : DecodeResult)
deriving DecidableEq, Repr

/-- What happens next, and who moves: the order of the operations is data (20_memory.md R60, R62, 60_exceptions.md
R218; log 2). -/
inductive Turn where
  /-- The environment presents an operation on a port. -/
  | input (x : Input)
  /-- The block takes its own step if it has one (TX_STEP, 41_bit_modulator.md R126). -/
  | own
  /-- The reset input (44_system_ops.md R200, 70_reset_and_hazards.md R240). -/
  | resetInput
  /-- An EDGE and an IDLE_CHECK with the same time, presented at once (42_receiver_fsm.md R169). -/
  | edgeWithCheck (ts : Nat) (lvl : Level)
deriving DecidableEq, Repr

/-- Everything the spec gives the block (10_state.md R22 to R39), in its order, then the model's own fields. -/
structure State where
  -- configuration registers (R22), read-only
  cfg : Cfg
  -- the packet buffer (R23, R24)
  pktSig : Sig
  pktLen : Byte
  pktPay : List Byte
  pktChk : Byte
  pktValid : Bool
  -- the replay buffer (R25); raw_len is its length
  rawSeq : List Nat
  -- the transmit sequencer (R26 to R29)
  txState : TxState
  txIdx : Nat
  txCount : Nat
  txSrc : TxSrc
  txLevel : Level
  txPending : Bool
  -- the receiver (R30 to R35); rx_count is the length of rxSamples
  rxState : RxState
  rxPre : Nat
  rxSamples : List Nat
  rxLastLevel : Level
  rxLastTs : Nat
  rxOverflow : Bool
  -- the edge detector (R36)
  edValid : Bool
  edLevel : Level
  -- the result registers (R37)
  resValid : Bool
  resOverrun : Bool
  resStatus : Status
  resSig : Sig
  resLen : Byte
  resPay : List Byte
  -- the frame record (R38)
  resPre : Nat
  resSamples : List Nat
  resLastLevel : Level
  -- the command status (R39)
  cmdStatus : Status
  -- the model's own: the turns to come (log 2), the output history (log 3), the value an internal unit returned
  -- (log 8), the number of free values drawn (log 6)
  turns : List Turn
  hist : List Event
  fnOut : FnOut
  draws : Nat
deriving DecidableEq, Repr

/-- Why the machine stops with a fault. -/
inductive Fault where
  /-- Raised by TX_STEP when it must read the packet buffer while `pkt_valid = 0`: the register holds no value and
  reading it is a fault of the model (10_state.md R46, 93_implementation_defined.md U3). No run from reset reaches such
  a state. Safe. -/
  | noValue
deriving DecidableEq, Repr

/-- Why an operation has no meaning: the spec's `refuse` and `require` (00_scope.md section 4.2). -/
inductive Refusal where
  /-- Raised by exec for an operation without a meaning in the model; no arm answers so. Safe. -/
  | notModelled (mnemonic : String)
  /-- Raised by EDGE, IDLE_CHECK and SAMPLE outside `Idle` when the time operand is less than `rx_last_ts`
  (42_receiver_fsm.md R151). Safe. -/
  | timeBackwards
  /-- Raised by TX_STEP when it is not enabled (41_bit_modulator.md R126, `require`); the block never takes it then.
  Safe. -/
  | notEnabled
  /-- Raised by DEMODULATE of the empty sequence (41_bit_modulator.md R139). Safe. -/
  | noPreamble
  /-- Raised by EMIT of the duration 0, which is no duration (41_bit_modulator.md R127, 30_encoding.md R83). Safe. -/
  | zeroDuration
  /-- Raised by TX_STEP when it would read a buffer outside its bounds (20_memory.md R51); no run from reset reaches
  such a state. Safe. -/
  | outOfBounds
deriving DecidableEq, Repr

/-- The state after reset of an instance built with the configuration `c` (10_state.md R46). The registers R46 marks
"unspecified: no value" hold zero or nothing (logs 4 and 5). -/
def State.resetFor (c : Cfg) : State where
  cfg := c
  pktSig := ⟨0, 0, 0, 0⟩
  pktLen := 0
  pktPay := []
  pktChk := 0
  pktValid := false
  rawSeq := []
  txState := .idle
  txIdx := 0
  txCount := 0
  txSrc := .packet
  txLevel := c.idleLevel
  txPending := false
  rxState := .idle
  rxPre := 0
  rxSamples := []
  rxLastLevel := .off
  rxLastTs := 0
  rxOverflow := false
  edValid := false
  edLevel := .off
  resValid := false
  resOverrun := false
  resStatus := .ok
  resSig := ⟨0, 0, 0, 0⟩
  resLen := 0
  resPay := []
  resPre := 0
  resSamples := []
  resLastLevel := .off
  cmdStatus := .ok
  turns := []
  hist := []
  fnOut := .none
  draws := 0

/-- The machine right after reset: 10_state.md R46 for the instance as it was built (log 1). -/
def State.reset : State := State.resetFor Config.built

end Sys2Proof.Machine
end

