-- ==== Sys2Proof/Machine/Codec.lean ====
section
/-! DEFINITION. The pure functions of the block: the Encoder's (40_framer_encoder.md), the Bit Modulator's and the
demodulator's (41_bit_modulator.md), the Decoder's (43_decoder.md). They read the configuration and nothing else. -/

namespace Sys2Proof.Machine

/-! ### Durations and levels -/

/-- `T_SHORT` (00_scope.md R7). -/
def tShort (c : Cfg) : Nat := c.shortUnits * c.tUnit

/-- `T_LONG` (00_scope.md R7). -/
def tLong (c : Cfg) : Nat := c.longUnits * c.tUnit

/-- `T_PRE`, the start marker's duration (41_bit_modulator.md R121). -/
def tPre (c : Cfg) : Nat := c.preUnits * c.tUnit

/-- `PulseDur` (30_encoding.md R75): a short pulse for 0, a long pulse for 1. -/
def pulseDur (c : Cfg) (bit : Bool) : Nat := if bit then tLong c else tShort c

/-- `toggle` (00_scope.md section 4.1). -/
def toggle : Level → Level
  | .on => .off
  | .off => .on

/-- The level element `i` of a transmitted sequence is held at (30_encoding.md R76). -/
def elementLevel (c : Cfg) (i : Nat) : Level :=
  if i % 2 = 0 then toggle c.idleLevel else c.idleLevel

/-! ### The Encoder -/

/-- `XorReduce` (40_framer_encoder.md R103). -/
def xorReduce (s : List Byte) : Byte := s.foldl (fun acc b => acc ^^^ b) 0

/-- The key byte payload byte `i` meets, `CIPHER_KEY[i mod 16]`, at every index (40_framer_encoder.md R104, R106). -/
def keyByte (key : Vector Byte 16) (i : Nat) : Byte := key[i % 16]'(Nat.mod_lt i (by decide))

/-- `Cipher`, its own inverse (40_framer_encoder.md R104, R105); the key position starts at 0 for every packet. -/
def cipher (key : Vector Byte 16) (s : List Byte) : List Byte :=
  s.mapIdx fun i b => b ^^^ keyByte key i

/-- `Encode(p)` for `|p| <= 255` (40_framer_encoder.md R100, R110): the checksum is of the plaintext (R107). -/
def encodePacket (c : Cfg) (payload : List Byte) : Packet where
  sig := c.signature
  len := BitVec.ofNat 8 payload.length
  pay := cipher c.cipherKey payload
  chk := xorReduce payload

/-- The four signature bytes in index order (20_memory.md R55). -/
def sigBytes (g : Sig) : List Byte := [g.b0, g.b1, g.b2, g.b3]

/-- `WireBytes` (30_encoding.md R71). -/
def wireBytes (p : Packet) : List Byte := sigBytes p.sig ++ [p.len] ++ p.pay ++ [p.chk]

/-! ### The Bit Modulator -/

/-- The bits of a byte in wire order, bit 7 first (20_memory.md R54). -/
def bitsMsbFirst (b : Byte) : List Bool :=
  [b.getLsbD 7, b.getLsbD 6, b.getLsbD 5, b.getLsbD 4, b.getLsbD 3, b.getLsbD 2, b.getLsbD 1, b.getLsbD 0]

/-- The data bits of a packet in the order in which they are sent (41_bit_modulator.md R120). -/
def packetBits (p : Packet) : List Bool := (wireBytes p).flatMap bitsMsbFirst

/-- `Modulate` (41_bit_modulator.md R120): the start marker, then one pulse per bit. -/
def modulate (c : Cfg) (p : Packet) : List Nat := tPre c :: (packetBits p).map (pulseDur c)

/-! ### The demodulator -/

/-- `Bit(d, pre)` (41_bit_modulator.md R138, R140): 0 below the midpoint of the two classes scaled by the frame's
measured preamble, else 1; a tie is 1 (R143; log 19). -/
def sampleBit (c : Cfg) (pre d : Nat) : Bool :=
  !decide (2 * d * c.preUnits < (c.shortUnits + c.longUnits) * pre)

/-- A byte from its eight bits, the first into bit 7 (30_encoding.md R79). -/
def byteOfBits (b0 b1 b2 b3 b4 b5 b6 b7 : Bool) : Byte :=
  BitVec.ofNat 8 (b0.toNat * 128 + b1.toNat * 64 + b2.toNat * 32 + b3.toNat * 16
    + b4.toNat * 8 + b5.toNat * 4 + b6.toNat * 2 + b7.toNat)

/-- The bytes of the samples, eight samples a byte in order (41_bit_modulator.md R142). -/
def demodBytes (c : Cfg) (pre : Nat) : List Nat → List Byte
  | d0 :: d1 :: d2 :: d3 :: d4 :: d5 :: d6 :: d7 :: rest =>
    byteOfBits (sampleBit c pre d0) (sampleBit c pre d1) (sampleBit c pre d2) (sampleBit c pre d3)
      (sampleBit c pre d4) (sampleBit c pre d5) (sampleBit c pre d6) (sampleBit c pre d7) :: demodBytes c pre rest
  | _ => []

/-- `Demodulate([pre] ++ samples)` (41_bit_modulator.md R138); `none` is MalformedBitstream, tested on the count alone
before any sample is classified (R141). -/
def demodulate (c : Cfg) (pre : Nat) (samples : List Nat) : Option (List Byte) :=
  if samples.length % 8 = 0 then some (demodBytes c pre samples) else none

/-! ### The Decoder -/

/-- Steps 2 to 5 of Decode on the demodulated bytes (43_decoder.md R182 to R186), in the order of R188. Bytes beyond
the packet are ignored (R189). -/
def decodeBytes (c : Cfg) (b : List Byte) : DecodeResult :=
  match b with
  | b0 :: b1 :: b2 :: b3 :: len :: rest =>
    if b.length < 6 + len.toNat then .error .truncatedFrame
    else if (⟨b0, b1, b2, b3⟩ : Sig) ≠ c.signature then .error .signatureMismatch
    else if rest[len.toNat]? = some (xorReduce (cipher c.cipherKey (rest.take len.toNat))) then
      .ok ⟨b0, b1, b2, b3⟩ len (cipher c.cipherKey (rest.take len.toNat))
    else .error .checksumMismatch
  | _ => .error .truncatedFrame

/-- `Decode(pre, samples)` (43_decoder.md R180). -/
def decodeFrame (c : Cfg) (pre : Nat) (samples : List Nat) : DecodeResult :=
  match demodulate c pre samples with
  | none => .error .malformedBitstream
  | some b => decodeBytes c b

end Sys2Proof.Machine
end

