-- ==== Sys2Proof/Machine/Operands.lean ====
section
/-! DEFINITION. The operand forms: the buffers (20_memory.md R51), the packet buffer in wire order (R52), the legal
operands of ENCODE and REPLAY, and the pulse a TX_STEP reads. -/

namespace Sys2Proof.Machine

/-- `MemRead(buf, i, n)` (20_memory.md R51): no value outside the buffer's current elements. -/
def memRead {α : Type} (buf : List α) (i n : Nat) : Option (List α) :=
  if i + n ≤ buf.length then some ((buf.drop i).take n) else none

/-- `MemWrite(buf, i, n, v)` with `n = |v|` (20_memory.md R51). -/
def memWrite {α : Type} (buf : List α) (i : Nat) (v : List α) : Option (List α) :=
  if i + v.length ≤ buf.length then some (buf.take i ++ v ++ buf.drop (i + v.length)) else none

/-- The packet in the packet buffer (10_state.md R23); it means something only while `pkt_valid = 1`. -/
def pktBuffer (s : State) : Packet where
  sig := s.pktSig
  len := s.pktLen
  pay := s.pktPay
  chk := s.pktChk

/-- `PKT`, the packet buffer in wire order (20_memory.md R52); no value while `pkt_valid = 0` (10_state.md R46). -/
def readPkt (s : State) : Option (List Byte) :=
  if s.pktValid then some (wireBytes (pktBuffer s)) else none

/-- A payload ENCODE accepts: at most `MAX_PAYLOAD = 255` bytes (40_framer_encoder.md R108). -/
def payloadFits (payload : List Byte) : Bool := decide (payload.length ≤ 255)

/-- A sequence REPLAY accepts: not empty, no more than `RAW_CAP` elements, no duration of 0 (41_bit_modulator.md R134,
R135). -/
def sequenceLegal (c : Cfg) (seq : List Nat) : Bool :=
  !seq.isEmpty && (fitsCap c.rawCap seq.length && seq.all fun d => decide (0 < d))

/-- The time operand of a receive input is legal: any time in `Idle`, else not before the last accepted edge
(42_receiver_fsm.md R151). -/
def timeLegal (s : State) (t : Nat) : Bool :=
  s.rxState == .idle || decide (s.rxLastTs ≤ t)

/-- The duration element `tx_idx` of the packet's sequence has, read from `PKT` one byte and one bit
(41_bit_modulator.md R126). Reading `PKT` while it holds no value is a fault of the model (10_state.md R46,
93_implementation_defined.md U3, 92_eei_decisions.md D36). -/
def packetPulse (s : State) : Host.Outcome Nat Fault Refusal :=
  if s.txIdx = 0 then .next (tPre s.cfg)
  else
    match readPkt s with
    | none => .fault .noValue
    | some w =>
      match memRead w ((s.txIdx - 1) / 8) 1 with
      | some [b] => .next (pulseDur s.cfg (b.getLsbD (7 - (s.txIdx - 1) % 8)))
      | _ => .refused .outOfBounds

/-- The duration element `tx_idx` of the replay buffer has (41_bit_modulator.md R126, R134). -/
def rawPulse (s : State) : Host.Outcome Nat Fault Refusal :=
  match memRead s.rawSeq s.txIdx 1 with
  | some [d] => .next d
  | _ => .refused .outOfBounds

/-- The duration of the pulse the next TX_STEP issues, by `tx_src` (41_bit_modulator.md R126). -/
def nextPulse (s : State) : Host.Outcome Nat Fault Refusal :=
  match s.txSrc with
  | .packet => packetPulse s
  | .raw => rawPulse s

end Sys2Proof.Machine
end

