-- ==== Sys2Proof/Machine/Flags.lean ====
section
/-! DEFINITION. The flags (10_state.md R40) and the numeric codes of the state registers and of the statuses
(30_encoding.md R85). Each flag mirrors a register; what sets and clears it stands in the operations. -/

namespace Sys2Proof.Machine

/-- Off = 0, On = 1 (10_state.md R21). -/
def levelCode : Level → BitVec 1
  | .off => 0#1
  | .on => 1#1

/-- The codes of `tx_state` (10_state.md R26). -/
def txStateCode : TxState → BitVec 2
  | .idle => 0#2
  | .active => 1#2
  | .fault => 2#2

/-- The codes of `tx_src` (10_state.md R28). -/
def txSrcCode : TxSrc → BitVec 1
  | .packet => 0#1
  | .raw => 1#1

/-- The codes of `rx_state` (10_state.md R30). -/
def rxStateCode : RxState → BitVec 2
  | .idle => 0#2
  | .awaitingPreamble => 1#2
  | .receiving => 2#2

/-- The status codes (30_encoding.md R85). -/
def statusCode : Status → BitVec 4
  | .ok => 0x0#4
  | .payloadTooLarge => 0x1#4
  | .malformedBitstream => 0x2#4
  | .truncatedFrame => 0x3#4
  | .signatureMismatch => 0x4#4
  | .checksumMismatch => 0x5#4
  | .busy => 0x6#4
  | .noPacket => 0x7#4
  | .badSequence => 0x8#4
  | .illegalCommand => 0x9#4
  | .driverFault => 0xA#4

/-- The status of a decode (43_decoder.md R188, 30_encoding.md R85). -/
def errorStatus : DecodeError → Status
  | .malformedBitstream => .malformedBitstream
  | .truncatedFrame => .truncatedFrame
  | .signatureMismatch => .signatureMismatch
  | .checksumMismatch => .checksumMismatch

/-- The status a hand-off records (42_receiver_fsm.md R163). -/
def resultStatus : DecodeResult → Status
  | .ok _ _ _ => .ok
  | .error e => errorStatus e

/-- `tx_busy` (10_state.md R40, bit 0). -/
def txBusy (s : State) : Bool := s.txState == .active

/-- `tx_fault` (10_state.md R40, bit 2). -/
def txFaulted (s : State) : Bool := s.txState == .fault

/-- The `STATUS` word (10_state.md R40): bits 7:6 `rx_state`, then `rx_overflow`, `res_overrun`, `res_valid`,
`tx_fault`, `pkt_valid`, `tx_busy`. -/
def statusWord (s : State) : BitVec 8 :=
  rxStateCode s.rxState ++ BitVec.ofBool s.rxOverflow ++ BitVec.ofBool s.resOverrun ++ BitVec.ofBool s.resValid
    ++ BitVec.ofBool (txFaulted s) ++ BitVec.ofBool s.pktValid ++ BitVec.ofBool (txBusy s)

/-- TX_STEP is enabled (41_bit_modulator.md R126). -/
def txReady (s : State) : Bool :=
  s.txState == .active && (!s.txPending && decide (s.txIdx < s.txCount))

end Sys2Proof.Machine
end

