-- ==== Sys2Proof/Machine/Ops.lean ====
section
/-! DEFINITION. The operations shared by the meanings, each one record update or a short composition of such, and the
host's reads. The block has no memory to address (20_memory.md R50) and no trap entry (60_exceptions.md R219): what
stands in their place are the buffers of Operands.lean and the three kinds of error below. -/

namespace Sys2Proof.Machine

/-- What a meaning answers. -/
abbrev Result := Host.Outcome State Fault Refusal

/-- Run `f` on the next state; a fault or a refusal ends the step. -/
def andThen (r : Result) (f : State → Result) : Result :=
  match r with
  | .next t => f t
  | .fault e => .fault e
  | .refused e => .refused e

/-! ### Output -/

/-- `out e`: append to the output history (60_exceptions.md R216; log 3). -/
def out (e : Event) (s : State) : State := { s with hist := s.hist ++ [e] }

/-- The answer of a host command: `cmd_status`, recorded with the command (10_state.md R39, 60_exceptions.md R215). -/
def answer (c : Instr) (st : Status) (s : State) : State :=
  { s with cmdStatus := st, hist := s.hist ++ [.command c st] }

/-! ### Taking an error. There is no vector, no saved state and no return (60_exceptions.md R219, R226). -/

/-- A caller error writes `cmd_status` and nothing else (60_exceptions.md R220). -/
def callerError (c : Instr) (st : Status) (s : State) : State := answer c st s

/-- The fatal error `DriverFault` (41_bit_modulator.md R131, 60_exceptions.md R225). -/
def driverFault (s : State) : State :=
  { s with txPending := false, txState := .fault, txLevel := s.cfg.idleLevel
           hist := s.hist ++ [.txFault .driverFault] }

/-! ### Transmit -/

/-- `Emit(level, dur)`: the transaction, recorded (41_bit_modulator.md R127). -/
def emitOut (level : Level) (dur : Nat) (s : State) : State := out (.emit level dur) s

/-- One pulse at a given level: the level is requested of the driver, for `dur` (41_bit_modulator.md R122). -/
def pulseAt (level : Level) (dur : Nat) (s : State) : State :=
  { s with txLevel := level, hist := s.hist ++ [.emit level dur] }

/-- The two actions of the modulator for one element, in this order: toggle the level, emit (41_bit_modulator.md
R122). -/
def togglePulse (dur : Nat) (s : State) : State := pulseAt (toggle s.txLevel) dur s

/-- The sequencer's part of a TX_STEP (41_bit_modulator.md R126): the Emit is outstanding, the index advances. -/
def advanceTx (s : State) : State := { s with txPending := true, txIdx := s.txIdx + 1 }

/-- Start emitting `count` pulses from `src` (41_bit_modulator.md R124, R134). -/
def startTx (src : TxSrc) (count : Nat) (s : State) : State :=
  { s with txSrc := src, txIdx := 0, txCount := count, txLevel := s.cfg.idleLevel, txState := .active }

/-- The end of a sequence (41_bit_modulator.md R129): the indices keep their final values. -/
def finishTx (s : State) : State :=
  { s with txState := .idle, txLevel := s.cfg.idleLevel, hist := s.hist ++ [.txDone] }

/-- The output of an abandoned pulse: `EmitCancel` exactly when one is outstanding (41_bit_modulator.md R132,
44_system_ops.md R200). -/
def cancelEvents (s : State) : List Event := if s.txPending then [.emitCancel] else []

/-- Abandon the transmission (41_bit_modulator.md R132). -/
def abandonTx (s : State) : State :=
  { s with txPending := false, txState := .idle, txLevel := s.cfg.idleLevel, txIdx := 0, txCount := 0
           hist := s.hist ++ cancelEvents s }

/-! ### Receive -/

/-- The frame reset, the "fresh accumulator" (10_state.md R45). -/
def frameReset (s : State) : State :=
  { s with rxPre := 0, rxSamples := [], rxOverflow := false, rxLastLevel := .off, rxLastTs := 0, rxState := .idle }

/-- The last accepted edge (42_receiver_fsm.md R153). -/
def acceptEdge (ts : Nat) (lvl : Level) (s : State) : State := { s with rxLastTs := ts, rxLastLevel := lvl }

/-- Store one sample, or note that it could not be stored (42_receiver_fsm.md R157, R158). -/
def appendSample (gap : Nat) (s : State) : State :=
  if fitsCap s.cfg.rxCap (s.rxSamples.length + 1) then { s with rxSamples := s.rxSamples ++ [gap] }
  else { s with rxOverflow := true }

/-- EDGE (42_receiver_fsm.md R152): the first edge of a frame is taken as it comes (R154), a gap at or below the noise
floor changes nothing (R156), the second edge fixes the preamble (R155), each further one is a sample (R157). -/
def edgeOp (ts : Nat) (lvl : Level) (s : State) : Result :=
  if timeLegal s ts then
    match s.rxState with
    | .idle => .next { acceptEdge ts lvl s with rxState := .awaitingPreamble }
    | .awaitingPreamble =>
      if ts - s.rxLastTs ≤ s.cfg.rxRejectPeriod then .next s
      else .next { acceptEdge ts lvl s with rxPre := ts - s.rxLastTs, rxState := .receiving }
    | .receiving =>
      if ts - s.rxLastTs ≤ s.cfg.rxRejectPeriod then .next s
      else .next (acceptEdge ts lvl (appendSample (ts - s.rxLastTs) s))
  else .refused .timeBackwards

/-- The condition of the hand-off (42_receiver_fsm.md R163). -/
def handOffCondition (s : State) : Bool :=
  decide (s.cfg.minRxBytes ≤ s.rxSamples.length) && (decide (s.cfg.rxRejectPeriod < s.rxPre) && !s.rxOverflow)

/-- The content registers of a decode (42_receiver_fsm.md R163). After an error they hold no defined value
(10_state.md R37): three free values, at most 255 payload bytes (log 6). -/
def storeResult (r : DecodeResult) (s : State) : State :=
  match r with
  | .ok sig len pay => { s with resSig := sig, resLen := len, resPay := pay }
  | .error _ =>
    { s with resSig := Config.freeSig s.draws s.resSig, resLen := Config.freeLen s.draws s.resLen
             resPay := (Config.freePay s.draws s.resPay).take 255, draws := s.draws + 1 }

/-- The rest of the hand-off (42_receiver_fsm.md R163): flags, status, frame record, `FrameOut`. -/
def recordFrame (r : DecodeResult) (s : State) : State :=
  { s with resOverrun := s.resOverrun || s.resValid, resStatus := resultStatus r, resPre := s.rxPre
           resSamples := s.rxSamples, resLastLevel := s.rxLastLevel, resValid := true
           hist := s.hist ++ [.frameOut r s.rxPre s.rxSamples s.rxLastLevel] }

/-- `HandOff()` (42_receiver_fsm.md R163), whether or not the frame decodes; the frame errors of 60_exceptions.md R222
to R224 are taken here. -/
def handOff (s : State) : State :=
  recordFrame (decodeFrame s.cfg s.rxPre s.rxSamples) (storeResult (decodeFrame s.cfg s.rxPre s.rxSamples) s)

/-- A completed frame: handed over or silently discarded, then the frame reset (42_receiver_fsm.md R160, R162). -/
def completeFrame (s : State) : State :=
  frameReset (if handOffCondition s then handOff s else s)

/-- The idle timeout has elapsed since the last accepted edge, strictly (42_receiver_fsm.md R161); never in `Idle`
(R166). -/
def timedOut (now : Nat) (s : State) : Bool :=
  !(s.rxState == .idle) && decide (s.cfg.rxEndPeriod < now - s.rxLastTs)

/-- IDLE_CHECK (42_receiver_fsm.md R160). -/
def idleCheckOp (now : Nat) (s : State) : Result :=
  if timeLegal s now then
    if timedOut now s then .next (completeFrame s) else .next s
  else .refused .timeBackwards

/-- The edge detector (42_receiver_fsm.md R168, after the idle check). -/
def edgeDetect (now : Nat) (lvl : Level) (s : State) : Result :=
  if s.edValid then
    if lvl = s.edLevel then .next s else edgeOp now lvl { s with edLevel := lvl }
  else .next { s with edValid := true, edLevel := lvl }

/-! ### System -/

/-- The effect of RESET and of the reset input (44_system_ops.md R200, 70_reset_and_hazards.md R240): every register
its reset value; CFG, the history and the model's own fields are no registers and stay. -/
def resetBlock (s : State) : State :=
  { State.resetFor s.cfg with turns := s.turns, hist := s.hist ++ cancelEvents s, fnOut := s.fnOut, draws := s.draws }

/-! ### Host reads (44_system_ops.md R203, R205): functions of the state, without effect. A read of a register that
holds no value has no meaning: `none` (10_state.md R46). STATUS is `statusWord`, PKT is `readPkt`. -/

/-- The result registers hold a decoded packet (10_state.md R37). -/
def resultReadable (s : State) : Bool := s.resValid && s.resStatus == .ok

def readCfg (s : State) : Cfg := s.cfg
def readCmdStatus (s : State) : Status := s.cmdStatus
def readTxIdx (s : State) : Nat := s.txIdx
def readTxCount (s : State) : Nat := s.txCount
def readTxLevel (s : State) : Level := s.txLevel
/-- `res_status`: meaningless while `res_valid = 0` (10_state.md R46). -/
def readResStatus (s : State) : Option Status := if s.resValid then some s.resStatus else none
def readResSig (s : State) : Option Sig := if resultReadable s then some s.resSig else none
def readResLen (s : State) : Option Byte := if resultReadable s then some s.resLen else none
def readResPay (s : State) : Option (List Byte) := if resultReadable s then some s.resPay else none
def readResPre (s : State) : Option Nat := if s.resValid then some s.resPre else none
def readResSamples (s : State) : Option (List Nat) := if s.resValid then some s.resSamples else none
def readResLastLevel (s : State) : Option Level := if s.resValid then some s.resLastLevel else none

/-- The block's outputs without the command answers: the output history as 95_test_vectors.md lists it (log 3). -/
def outputs (s : State) : List Event :=
  s.hist.filter fun e => match e with
    | .command _ _ => false
    | _ => true

/-- The "(index, level, duration)" rows of a transmitted packet (30_encoding.md R88). -/
def transmitTable (c : Cfg) (p : Packet) : List (Nat × Level × Nat) :=
  (modulate c p).mapIdx fun i d => (i, elementLevel c i, d)

/-- The "(index, level, duration)" rows of the frame record (30_encoding.md R88): row 0 the preamble, then the samples;
the levels alternate and the last is the opposite of `res_last_level`. -/
def frameTable (s : State) : Option (List (Nat × Level × Nat)) :=
  if s.resValid then
    some ((s.resPre :: s.resSamples).mapIdx fun i d =>
      (i, if (s.resSamples.length - i) % 2 = 0 then toggle s.resLastLevel else s.resLastLevel, d))
  else none

/-- A run is over: nothing to come and no transmission in flight (70_reset_and_hazards.md R260). -/
def quiescent (s : State) : Bool := s.turns.isEmpty && !txBusy s

end Sys2Proof.Machine
end

