-- ==== Sys2Proof/Machine/BitModulator.lean ====
section
/-! DEFINITION. The transmit operations, the Signal Driver handshake and the demodulator as a unit
(41_bit_modulator.md). -/

namespace Sys2Proof.Machine

/-- MODULATE (41_bit_modulator.md R124, R125). -/
def execModulate (s : State) : Result :=
  if s.txState ≠ .idle then .next (callerError .modulate .busy s)
  else if s.pktValid then .next (answer .modulate .ok (startTx .packet (1 + 8 * (6 + s.pktLen.toNat)) s))
  else .next (callerError .modulate .noPacket s)

/-- REPLAY (41_bit_modulator.md R134, R135): the sequence is kept verbatim. -/
def execReplay (seq : List Nat) (s : State) : Result :=
  if s.txState ≠ .idle then .next (callerError (.replay seq) .busy s)
  else if sequenceLegal s.cfg seq then
    .next (answer (.replay seq) .ok (startTx .raw seq.length { s with rawSeq := seq }))
  else .next (callerError (.replay seq) .badSequence s)

/-- CANCEL (41_bit_modulator.md R132): `tx_idx` and `tx_count` become 0. DESIGN CHOICE: 60_exceptions.md R218 says that
CANCEL and the EMIT_DONE of the last pulse leave the same state in either order; by R132 and R129 these two registers
differ, and the model follows R132 and R129 (log 21). -/
def execCancel (s : State) : Result :=
  if s.txState = .active then .next (answer .cancel .ok (abandonTx s)) else .next (answer .cancel .ok s)

/-- TX_STEP (41_bit_modulator.md R126): toggle, emit the next pulse, advance. -/
def execTxStep (s : State) : Result :=
  if txReady s then
    match nextPulse s with
    | .next d => .next (advanceTx (togglePulse d s))
    | .fault e => .fault e
    | .refused e => .refused e
  else .refused .notEnabled

/-- EMIT (41_bit_modulator.md R127): the transaction is recorded in the output history. The level, the pending bit and
the index are TX_STEP's (R126; log 9). -/
def execEmit (level : Level) (dur : Nat) (s : State) : Result :=
  if 0 < dur then .next (emitOut level dur s) else .refused .zeroDuration

/-- EMIT_DONE (41_bit_modulator.md R129): ignored when nothing is outstanding; `tx_idx` and `tx_count` keep their final
values. Against a CANCEL at the same instant: log 21. -/
def execEmitDone (s : State) : Result :=
  if s.txPending then
    if s.txIdx = s.txCount then .next (finishTx { s with txPending := false })
    else .next { s with txPending := false }
  else .next s

/-- EMIT_FAIL (41_bit_modulator.md R131): ignored when nothing is outstanding. -/
def execEmitFail (s : State) : Result :=
  if s.txPending then .next (driverFault s) else .next s

/-- DEMODULATE (41_bit_modulator.md R138, R139) invoked on its own: it writes no register, and the value it returns
stands in `fnOut` (log 8). -/
def execDemodulate (seq : List Nat) (s : State) : Result :=
  match seq with
  | [] => .refused .noPreamble
  | pre :: samples =>
    match demodulate s.cfg pre samples with
    | none => .next { s with fnOut := .malformed }
    | some b => .next { s with fnOut := .bytes b }

end Sys2Proof.Machine
end

