-- ==== Sys2Proof/Machine/Decoder.lean ====
section
/-! DEFINITION. The Decoder as a unit (43_decoder.md). -/

namespace Sys2Proof.Machine

/-- DECODE (43_decoder.md R180) invoked on its own: it writes no register, and the value it returns stands in `fnOut`
(log 8). The hand-off uses the same `decodeFrame`. -/
def execDecode (pre : Nat) (samples : List Nat) (s : State) : Result :=
  .next { s with fnOut := .decoded (decodeFrame s.cfg pre samples) }

end Sys2Proof.Machine
end

