-- ==== Sys2Proof/Machine/FramerEncoder.lean ====
section
/-! DEFINITION. The Encoder's operation (40_framer_encoder.md). -/

namespace Sys2Proof.Machine

/-- ENCODE (40_framer_encoder.md R100); the busy test comes before the length test (R109, 60_exceptions.md R217). -/
def execEncode (payload : List Byte) (s : State) : Result :=
  if s.txState = .active then .next (callerError (.encode payload) .busy s)
  else if payloadFits payload then
    .next (answer (.encode payload) .ok
      { s with pktSig := (encodePacket s.cfg payload).sig, pktLen := (encodePacket s.cfg payload).len
               pktPay := (encodePacket s.cfg payload).pay, pktChk := (encodePacket s.cfg payload).chk
               pktValid := true })
  else .next (callerError (.encode payload) .payloadTooLarge s)

end Sys2Proof.Machine
end

