-- ==== Sys2Proof/Machine/Receiver.lean ====
section
/-! DEFINITION. The receive events (42_receiver_fsm.md). -/

namespace Sys2Proof.Machine

/-- EDGE (42_receiver_fsm.md R152). -/
def execEdge (ts : Nat) (lvl : Level) (s : State) : Result := edgeOp ts lvl s

/-- IDLE_CHECK (42_receiver_fsm.md R160). -/
def execIdleCheck (now : Nat) (s : State) : Result := idleCheckOp now s

/-- SAMPLE (42_receiver_fsm.md R168): the idle check first (R169), then the edge detector. -/
def execSample (now : Nat) (lvl : Level) (s : State) : Result :=
  andThen (idleCheckOp now s) (edgeDetect now lvl)

end Sys2Proof.Machine
end

