-- ==== Sys2Proof/Machine/System.lean ====
section
/-! DEFINITION. The system operations (44_system_ops.md) and the reserved codes (30_encoding.md R84). -/

namespace Sys2Proof.Machine

/-- RESET (44_system_ops.md R200): accepted in every state. -/
def execReset (s : State) : Result := .next (answer .reset .ok (resetBlock s))

/-- RES_ACK (44_system_ops.md R202). -/
def execResAck (s : State) : Result := .next (answer .resAck .ok { s with resValid := false })

/-- A reserved command code (30_encoding.md R84). -/
def execCmdReserved (op : BitVec 4) (s : State) : Result :=
  .next (callerError (.cmdReserved op) .illegalCommand s)

/-- A reserved event code is ignored (30_encoding.md R84). -/
def execEvtReserved (_ev : BitVec 3) (s : State) : Result := .next s

end Sys2Proof.Machine
end

