-- ==== Sys2Proof/Machine/Wire.lean ====
section
/-! DEFINITION. The wire symbols and the packet on the wire (30_encoding.md R71, R75): what the modulator does for
each (41_bit_modulator.md R120 to R122), without the sequencer's bookkeeping (log 10). -/

namespace Sys2Proof.Machine

/-- START (30_encoding.md R75, 41_bit_modulator.md R121): one pulse of `T_PRE` at `toggle(IDLE_LEVEL)`. -/
def execStart (s : State) : Result := .next (pulseAt (toggle s.cfg.idleLevel) (tPre s.cfg) s)

/-- BIT0 (30_encoding.md R75): toggle, then a short pulse. -/
def execBit0 (s : State) : Result := .next (togglePulse (tShort s.cfg) s)

/-- BIT1 (30_encoding.md R75): toggle, then a long pulse. -/
def execBit1 (s : State) : Result := .next (togglePulse (tLong s.cfg) s)

/-- The pulses of a row of data bits, in order (41_bit_modulator.md R122). -/
def bitPulses (bits : List Bool) (s : State) : State :=
  bits.foldl (fun t b => togglePulse (pulseDur t.cfg b) t) s

/-- PACKET (30_encoding.md R71): its wire bytes in order, each most significant bit first, one data pulse per bit. -/
def execPacket (pkt : Packet) (s : State) : Result := .next (bitPulses (packetBits pkt) s)

end Sys2Proof.Machine
end

