-- ==== Sys2Proof/Machine/Dispatch.lean ====
section
/-! DEFINITION. One arm per operation (30_encoding.md R82). -/

namespace Sys2Proof.Machine

def exec (i : Instr) (s : State) : Host.Outcome State Fault Refusal :=
  match i with
  | .encode payload => Sys2Proof.Machine.execEncode payload s
  | .modulate => Sys2Proof.Machine.execModulate s
  | .replay seq => Sys2Proof.Machine.execReplay seq s
  | .cancel => Sys2Proof.Machine.execCancel s
  | .resAck => Sys2Proof.Machine.execResAck s
  | .reset => Sys2Proof.Machine.execReset s
  | .edge ts lvl => Sys2Proof.Machine.execEdge ts lvl s
  | .idleCheck now => Sys2Proof.Machine.execIdleCheck now s
  | .sample now lvl => Sys2Proof.Machine.execSample now lvl s
  | .emitDone => Sys2Proof.Machine.execEmitDone s
  | .emitFail => Sys2Proof.Machine.execEmitFail s
  | .txStep => Sys2Proof.Machine.execTxStep s
  | .demodulate seq => Sys2Proof.Machine.execDemodulate seq s
  | .decode pre samples => Sys2Proof.Machine.execDecode pre samples s
  | .emit level dur => Sys2Proof.Machine.execEmit level dur s
  | .cmdReserved op => Sys2Proof.Machine.execCmdReserved op s
  | .evtReserved ev => Sys2Proof.Machine.execEvtReserved ev s
  | .packet pkt => Sys2Proof.Machine.execPacket pkt s
  | .start => Sys2Proof.Machine.execStart s
  | .bit0 => Sys2Proof.Machine.execBit0 s
  | .bit1 => Sys2Proof.Machine.execBit1 s

end Sys2Proof.Machine
end

