-- ==== Sys2Proof/Machine/Turns.lean ====
section
/-! DEFINITION. What each turn does (20_memory.md R60, R62; log 2), and the presentation of a code word. -/

namespace Sys2Proof.Machine

/-- The block's own step: TX_STEP when it is enabled, otherwise it waits (41_bit_modulator.md R126,
70_reset_and_hazards.md R240; log 15). -/
def ownStep (s : State) : Host.Outcome State Fault Refusal :=
  if txReady s then exec .txStep s else .next s

/-- One turn, already taken off the list. An EDGE and an IDLE_CHECK presented at once are taken one after the other,
the IDLE_CHECK first (42_receiver_fsm.md R169, 60_exceptions.md R218). -/
def takeTurn (t : Turn) (s : State) : Host.Outcome State Fault Refusal :=
  match t with
  | .own => ownStep s
  | .input x => exec (decode x) s
  | .resetInput => .next (resetBlock s)
  | .edgeWithCheck ts lvl => exec (.idleCheck ts) { s with turns := .input (.event 0x1#3 ts lvl) :: s.turns }

/-- The operation of a word of spec/opcode_table.json is presented next (log 13); a word that is no code of its port
cannot be presented and changes nothing. -/
def presentWord (nbits w : Nat) (s : State) : State :=
  match tableInput nbits w with
  | some x => { s with turns := .input x :: s.turns }
  | none => s

end Sys2Proof.Machine
end

