-- ==== Sys2Proof/Machine/Step.lean ====
section
/-! DEFINITION. One step: the next turn is taken (20_memory.md R60, R62; log 2). -/

namespace Sys2Proof.Machine

/-- One step of the block. With no turn left the block goes on by itself (log 15). -/
def step (s : State) : Host.Outcome State Fault Refusal :=
  match s.turns with
  | [] => ownStep s
  | t :: rest => takeTurn t { s with turns := rest }

/-- `s` with the operation of a word of spec/opcode_table.json presented next (log 13). -/
def State.withFetchWord (s : State) (nbits w : Nat) : State := presentWord nbits w s

end Sys2Proof.Machine
end

