-- ==== Sys2Proof/Safety.lean ====
section
/-! DEFINITION. What a safe run is: the invariants the spec states of the registers, and the one stop a run may have. -/

namespace Sys2Proof.Machine

/-- The statuses `cmd_status` can hold (10_state.md R39). -/
def commandStatus : Status → Bool
  | .ok => true
  | .payloadTooLarge => true
  | .busy => true
  | .noPacket => true
  | .badSequence => true
  | .illegalCommand => true
  | .malformedBitstream => false
  | .truncatedFrame => false
  | .signatureMismatch => false
  | .checksumMismatch => false
  | .driverFault => false

/-- The statuses `res_status` can hold (10_state.md R37). -/
def frameStatus : Status → Bool
  | .ok => true
  | .malformedBitstream => true
  | .truncatedFrame => true
  | .signatureMismatch => true
  | .checksumMismatch => true
  | .payloadTooLarge => false
  | .busy => false
  | .noPacket => false
  | .badSequence => false
  | .illegalCommand => false
  | .driverFault => false

/-- The packet and replay buffers (10_state.md R23, R25). -/
structure BufferInv (s : State) : Prop where
  pkt_sig : s.pktValid = true → s.pktSig = s.cfg.signature
  pkt_len : s.pktValid = true → s.pktPay.length = s.pktLen.toNat
  raw_positive : ∀ d ∈ s.rawSeq, 0 < d
  raw_fits : fitsCap s.cfg.rawCap s.rawSeq.length = true

/-- The transmit sequencer (10_state.md R26 to R29, 30_encoding.md R76). -/
structure TransmitInv (s : State) : Prop where
  pending_active : s.txPending = true → s.txState = .active
  idx_le : s.txState = .active → s.txIdx ≤ s.txCount
  count_pos : s.txState = .active → 1 ≤ s.txCount
  ready_lt : s.txState = .active → s.txPending = false → s.txIdx < s.txCount
  pending_idx : s.txPending = true → 1 ≤ s.txIdx
  packet_source : s.txState = .active → s.txSrc = .packet →
    s.pktValid = true ∧ s.txCount = 1 + 8 * (6 + s.pktLen.toNat)
  raw_source : s.txState = .active → s.txSrc = .raw → s.txCount = s.rawSeq.length
  level_quiet : s.txState ≠ .active → s.txLevel = s.cfg.idleLevel
  level_active : s.txState = .active →
    s.txLevel = if s.txIdx % 2 = 0 then s.cfg.idleLevel else toggle s.cfg.idleLevel

/-- The receiver: 42_receiver_fsm.md R171 (a) to (e). -/
structure ReceiveInv (s : State) : Prop where
  idle_fresh : s.rxState = .idle → s.rxPre = 0 ∧ s.rxSamples = [] ∧ s.rxOverflow = false
  awaiting_fresh : s.rxState = .awaitingPreamble → s.rxPre = 0 ∧ s.rxSamples = []
  receiving_pre : s.rxState = .receiving → s.cfg.rxRejectPeriod < s.rxPre
  samples_accepted : ∀ d ∈ s.rxSamples, s.cfg.rxRejectPeriod < d
  samples_fit : fitsCap s.cfg.rxCap s.rxSamples.length = true

/-- The result and status registers (10_state.md R37, R39). -/
structure ResultInv (s : State) : Prop where
  res_status : frameStatus s.resStatus = true
  res_decoded : s.resValid = true → s.resStatus = .ok →
    s.resSig = s.cfg.signature ∧ s.resPay.length = s.resLen.toNat
  res_bound : s.resPay.length ≤ 255
  cmd_status : commandStatus s.cmdStatus = true

/-- What holds after reset and after every operation. -/
structure Inv (s : State) : Prop where
  buffers : BufferInv s
  transmit : TransmitInv s
  receive : ReceiveInv s
  results : ResultInv s

/-- The one stop a run may come to: the environment's clock runs backwards (42_receiver_fsm.md R151). -/
def SafeOutcome (r : Host.Outcome State Fault Refusal) : Prop :=
  match r with
  | .next _ => True
  | .fault _ => False
  | .refused e => e = .timeBackwards

/-- The time operand of the turn that is next, where it has one (42_receiver_fsm.md R151). -/
def nextTime (s : State) : Option Nat :=
  match s.turns with
  | .input x :: _ =>
    match decode x with
    | .edge ts _ => some ts
    | .idleCheck now => some now
    | .sample now _ => some now
    | _ => none
  | .edgeWithCheck ts _ :: _ => some ts
  | _ => none

/-! ### Terms for statements about several operations -/

/-- The operations of the transmit side (20_memory.md R64). -/
def transmitOp : Instr → Bool
  | .encode _ => true
  | .modulate => true
  | .replay _ => true
  | .cancel => true
  | .txStep => true
  | .emitDone => true
  | .emitFail => true
  | .resAck => false
  | .reset => false
  | .edge _ _ => false
  | .idleCheck _ => false
  | .sample _ _ => false
  | .demodulate _ => false
  | .decode _ _ => false
  | .emit _ _ => false
  | .cmdReserved _ => false
  | .evtReserved _ => false
  | .packet _ => false
  | .start => false
  | .bit0 => false
  | .bit1 => false

/-- The operations of the receive side (20_memory.md R64). -/
def receiveOp : Instr → Bool
  | .edge _ _ => true
  | .idleCheck _ => true
  | .sample _ _ => true
  | .resAck => true
  | .encode _ => false
  | .modulate => false
  | .replay _ => false
  | .cancel => false
  | .reset => false
  | .emitDone => false
  | .emitFail => false
  | .txStep => false
  | .demodulate _ => false
  | .decode _ _ => false
  | .emit _ _ => false
  | .cmdReserved _ => false
  | .evtReserved _ => false
  | .packet _ => false
  | .start => false
  | .bit0 => false
  | .bit1 => false

/-- Two states agree on the registers `pkt_*`, `raw_*`, `tx_*` (10_state.md R20). -/
structure SameTransmit (s t : State) : Prop where
  pktSig : s.pktSig = t.pktSig
  pktLen : s.pktLen = t.pktLen
  pktPay : s.pktPay = t.pktPay
  pktChk : s.pktChk = t.pktChk
  pktValid : s.pktValid = t.pktValid
  rawSeq : s.rawSeq = t.rawSeq
  txState : s.txState = t.txState
  txIdx : s.txIdx = t.txIdx
  txCount : s.txCount = t.txCount
  txSrc : s.txSrc = t.txSrc
  txLevel : s.txLevel = t.txLevel
  txPending : s.txPending = t.txPending

/-- Two states agree on the registers `rx_*`, `ed_*`, `res_*` (10_state.md R20). -/
structure SameReceive (s t : State) : Prop where
  rxState : s.rxState = t.rxState
  rxPre : s.rxPre = t.rxPre
  rxSamples : s.rxSamples = t.rxSamples
  rxLastLevel : s.rxLastLevel = t.rxLastLevel
  rxLastTs : s.rxLastTs = t.rxLastTs
  rxOverflow : s.rxOverflow = t.rxOverflow
  edValid : s.edValid = t.edValid
  edLevel : s.edLevel = t.edLevel
  resValid : s.resValid = t.resValid
  resOverrun : s.resOverrun = t.resOverrun
  resStatus : s.resStatus = t.resStatus
  resSig : s.resSig = t.resSig
  resLen : s.resLen = t.resLen
  resPay : s.resPay = t.resPay
  resPre : s.resPre = t.resPre
  resSamples : s.resSamples = t.resSamples
  resLastLevel : s.resLastLevel = t.resLastLevel

/-- The stored durations do not exceed the idle timeout (42_receiver_fsm.md R171 (f)). -/
def WithinEndPeriod (s : State) : Prop :=
  s.rxPre ≤ s.cfg.rxEndPeriod ∧ ∀ d ∈ s.rxSamples, d ≤ s.cfg.rxEndPeriod

/-- The `Emit` transactions of a packet's transmission (41_bit_modulator.md R136). -/
def packetEmits (c : Cfg) (p : Packet) : List Event :=
  (modulate c p).mapIdx fun i d => .emit (elementLevel c i) d

/-- `n` times: the block's own step, then the driver's EMIT_DONE. -/
def handshakes (n : Nat) : List Turn :=
  (List.replicate n [Turn.own, Turn.input (.event 0x4#3 0 .off)]).flatten

/-- The edges of a line that changes at `t` to `lvl` and then toggles after each of the durations. -/
def edgeTurns (t : Nat) (lvl : Level) : List Nat → List Turn
  | [] => [.input (.event 0x1#3 t lvl)]
  | d :: ds => .input (.event 0x1#3 t lvl) :: edgeTurns (t + d) (toggle lvl) ds

/-- The turn of an IDLE_CHECK. -/
def idleTurn (now : Nat) : Turn := .input (.event 0x2#3 now .off)

/-- The turn of an EDGE. -/
def edgeTurn (e : Nat × Level) : Turn := .input (.event 0x1#3 e.1 e.2)

/-- `k` steps of the machine. -/
def runSteps (k : Nat) (s : State) : Host.Outcome State Fault Refusal := Sys2Proof.core.run k s

end Sys2Proof.Machine
end

