-- ==== Sys2Proof/Certificates/Slice0/Obligations.lean ====
section
/-! DEFINITION. The statements for the provers. A conclusion of the form "exec answers next of the state with these
fields written" says the completion of the operation, its result and its whole frame at once: every register, flag,
buffer and model field that is not named keeps its value. -/

open Sys2Proof Sys2Proof.Machine

/-! ### Decoding and stepping -/

/-- 30_encoding.md R82, R84: words written out from the code column of the operation table. -/
def Obligations.TableWordsDecode : Prop :=
  decodeTableWord 8 0b0001 = some (.encode []) ∧ decodeTableWord 8 0b0010 = some .modulate ∧
  decodeTableWord 8 0b0011 = some (.replay []) ∧ decodeTableWord 8 0b0100 = some .cancel ∧
  decodeTableWord 8 0b0101 = some .resAck ∧ decodeTableWord 8 0b0110 = some .reset ∧
  decodeTableWord 8 0b0111 = some (.cmdReserved 0b0111#4) ∧ decodeTableWord 8 0b10000 = none ∧
  decodeTableWord 3 0b001 = some (.edge 0 .off) ∧ decodeTableWord 3 0b010 = some (.idleCheck 0) ∧
  decodeTableWord 3 0b011 = some (.sample 0 .off) ∧ decodeTableWord 3 0b100 = some .emitDone ∧
  decodeTableWord 3 0b101 = some .emitFail ∧ decodeTableWord 3 0b110 = some (.evtReserved 0b110#3)

/-- Decode and encode agree: every well-formed operation that has a code decodes from its encoding with every operand,
and every presentation on a port decodes to a well-formed operation that has a code. -/
def Obligations.DecodeEncodeAgree : Prop :=
  (∀ (i : Instr) (x : Input), wellFormed i = true → encode i = some x → decode x = i) ∧
  (∀ x : Input, wellFormed (decode x) = true ∧ ∃ y, encode (decode x) = some y ∧ decode y = decode x)

/-- A step runs the decoded operation of the next turn; the block's own turn is TX_STEP when it is enabled and else
nothing; the reset input resets; an EDGE and an IDLE_CHECK at once leave the EDGE for the next step. The list of turns
is the model's choice (logs 2 and 15). -/
def Obligations.StepTakesTheNextTurn : Prop :=
  ∀ (s : State) (rest : List Turn),
    (∀ x, s.turns = .input x :: rest → step s = exec (decode x) { s with turns := rest }) ∧
    (s.turns = .own :: rest → txReady s = true → step s = exec .txStep { s with turns := rest }) ∧
    (s.turns = .own :: rest → txReady s = false → step s = .next { s with turns := rest }) ∧
    (s.turns = [] → txReady s = true → step s = exec .txStep s) ∧
    (s.turns = [] → txReady s = false → step s = .next s) ∧
    (s.turns = .resetInput :: rest → step s = .next (resetBlock { s with turns := rest })) ∧
    (∀ ts lvl, s.turns = .edgeWithCheck ts lvl :: rest →
      step s = exec (.idleCheck ts) { s with turns := edgeTurn (ts, lvl) :: rest })

/-! ### The Encoder -/

/-- 40_framer_encoder.md R103. -/
def Obligations.XorReduceOfPlaintext : Prop :=
  xorReduce [] = 0x00#8 ∧ (∀ (s : List Byte) (b : Byte), xorReduce (s ++ [b]) = xorReduce s ^^^ b) ∧
  (∀ b : Byte, xorReduce [b] = b)

/-- 40_framer_encoder.md R104: byte `i` meets `CIPHER_KEY[i mod 16]`, at every index. -/
def Obligations.CipherMeetsKeyByte : Prop :=
  ∀ (key : Vector Byte 16) (s : List Byte),
    (cipher key s).length = s.length ∧
    ∀ (i : Nat) (b : Byte), s[i]? = some b →
      ∃ k, key.toList[i % 16]? = some k ∧ (cipher key s)[i]? = some (b ^^^ k)

/-- 40_framer_encoder.md R105. -/
def Obligations.CipherIsItsOwnInverse : Prop :=
  ∀ (key : Vector Byte 16) (s : List Byte), cipher key (cipher key s) = s

/-- 40_framer_encoder.md R100, R108, R109: the whole operation. -/
def Obligations.EncodeResult : Prop :=
  ∀ (p : List Byte) (s : State),
    (s.txState = .active →
      exec (.encode p) s = .next { s with cmdStatus := .busy, hist := s.hist ++ [.command (.encode p) .busy] }) ∧
    (s.txState ≠ .active → 255 < p.length →
      exec (.encode p) s = .next { s with cmdStatus := .payloadTooLarge
                                          hist := s.hist ++ [.command (.encode p) .payloadTooLarge] }) ∧
    (s.txState ≠ .active → p.length ≤ 255 →
      exec (.encode p) s = .next { s with pktSig := s.cfg.signature, pktLen := BitVec.ofNat 8 p.length
                                          pktPay := cipher s.cfg.cipherKey p, pktChk := xorReduce p
                                          pktValid := true, cmdStatus := .ok
                                          hist := s.hist ++ [.command (.encode p) .ok] })

/-! ### The Bit Modulator -/

/-- 30_encoding.md R74. -/
def Obligations.PulseSequenceElements : Prop :=
  ∀ (c : Cfg) (p : Packet),
    (modulate c p).length = 1 + 8 * (wireBytes p).length ∧ (wireBytes p).length = 6 + p.pay.length ∧
    (modulate c p)[0]? = some (tPre c) ∧
    (∀ (j k : Nat) (b : Byte), k ≤ 7 → (wireBytes p)[j]? = some b →
      (modulate c p)[1 + 8 * j + k]? = some (pulseDur c (b.getLsbD (7 - k)))) ∧
    ∀ (i : Nat) (b : Byte), 1 ≤ i → (wireBytes p)[(i - 1) / 8]? = some b →
      (modulate c p)[i]? = some (pulseDur c (b.getLsbD (7 - (i - 1) % 8)))

/-- 30_encoding.md R77: the number of pulses and the time on the line of a packet with `n` payload bytes. -/
def Obligations.PulseSequenceSizeAndDuration : Prop :=
  ∀ (c : Cfg) (p : Packet) (n o : Nat), p.pay.length = n → o = (packetBits p).count true →
    (wireBytes p).length = 6 + n ∧ (packetBits p).length = 8 * (6 + n) ∧
    (modulate c p).length = 1 + 8 * (6 + n) ∧ o ≤ 8 * (6 + n) ∧
    (modulate c p).sum = tPre c + (8 * (6 + n) - o) * tShort c + o * tLong c

/-- 41_bit_modulator.md R124, R125: the whole operation. -/
def Obligations.ModulateResult : Prop :=
  ∀ s : State,
    (s.txState ≠ .idle →
      exec .modulate s = .next { s with cmdStatus := .busy, hist := s.hist ++ [.command .modulate .busy] }) ∧
    (s.txState = .idle → s.pktValid = false →
      exec .modulate s = .next { s with cmdStatus := .noPacket, hist := s.hist ++ [.command .modulate .noPacket] }) ∧
    (s.txState = .idle → s.pktValid = true →
      exec .modulate s = .next { s with txSrc := .packet, txIdx := 0, txCount := 1 + 8 * (6 + s.pktLen.toNat)
                                        txLevel := s.cfg.idleLevel, txState := .active, cmdStatus := .ok
                                        hist := s.hist ++ [.command .modulate .ok] })

/-- 41_bit_modulator.md R134, R135: the whole operation. -/
def Obligations.ReplayResult : Prop :=
  ∀ (seq : List Nat) (s : State),
    (s.txState ≠ .idle →
      exec (.replay seq) s = .next { s with cmdStatus := .busy, hist := s.hist ++ [.command (.replay seq) .busy] }) ∧
    (s.txState = .idle → (seq = [] ∨ 0 ∈ seq ∨ ∃ cap, s.cfg.rawCap = some cap ∧ cap < seq.length) →
      exec (.replay seq) s = .next { s with cmdStatus := .badSequence
                                            hist := s.hist ++ [.command (.replay seq) .badSequence] }) ∧
    (s.txState = .idle → seq ≠ [] → (∀ d ∈ seq, 0 < d) → (∀ cap, s.cfg.rawCap = some cap → seq.length ≤ cap) →
      exec (.replay seq) s = .next { s with rawSeq := seq, txSrc := .raw, txIdx := 0, txCount := seq.length
                                            txLevel := s.cfg.idleLevel, txState := .active, cmdStatus := .ok
                                            hist := s.hist ++ [.command (.replay seq) .ok] })

/-- 41_bit_modulator.md R132: the whole operation. That EmitCancel stands before the recorded answer is the model's
choice (log 3). -/
def Obligations.CancelResult : Prop :=
  ∀ s : State,
    (s.txState ≠ .active →
      exec .cancel s = .next { s with cmdStatus := .ok, hist := s.hist ++ [.command .cancel .ok] }) ∧
    (s.txState = .active → s.txPending = true →
      exec .cancel s = .next { s with txPending := false, txState := .idle, txLevel := s.cfg.idleLevel, txIdx := 0
                                      txCount := 0, cmdStatus := .ok
                                      hist := s.hist ++ [.emitCancel, .command .cancel .ok] }) ∧
    (s.txState = .active → s.txPending = false →
      exec .cancel s = .next { s with txState := .idle, txLevel := s.cfg.idleLevel, txIdx := 0, txCount := 0
                                      cmdStatus := .ok, hist := s.hist ++ [.command .cancel .ok] })

/-- 41_bit_modulator.md R126: the whole operation. When it is enabled the block takes it by itself; it toggles the
level and issues the start marker, or bit `7 - k` of wire byte `j` of `PKT`, or the next duration of the replay
buffer. "By itself" is said of the empty list of turns, the model's choice (logs 2 and 15; the other turns are in
StepTakesTheNextTurn); the refusal's name is log 11. -/
def Obligations.TxStepResult : Prop :=
  ∀ s : State,
    ((s.txState ≠ .active ∨ s.txPending = true ∨ s.txCount ≤ s.txIdx) → exec .txStep s = .refused .notEnabled) ∧
    (s.txState = .active → s.txPending = false → s.txIdx < s.txCount →
      (s.turns = [] → step s = exec .txStep s) ∧
      (s.txSrc = .packet → s.txIdx = 0 →
        exec .txStep s = .next { s with txLevel := toggle s.txLevel, txPending := true, txIdx := s.txIdx + 1
                                        hist := s.hist ++ [.emit (toggle s.txLevel) (tPre s.cfg)] }) ∧
      (s.txSrc = .packet → ∀ (j k : Nat) (b : Byte), s.txIdx = 1 + 8 * j + k → k ≤ 7 → s.pktValid = true →
        (wireBytes (pktBuffer s))[j]? = some b →
        exec .txStep s = .next { s with txLevel := toggle s.txLevel, txPending := true, txIdx := s.txIdx + 1
                                        hist := s.hist ++
                                          [.emit (toggle s.txLevel) (pulseDur s.cfg (b.getLsbD (7 - k)))] }) ∧
      (s.txSrc = .raw → ∀ d : Nat, s.rawSeq[s.txIdx]? = some d →
        exec .txStep s = .next { s with txLevel := toggle s.txLevel, txPending := true, txIdx := s.txIdx + 1
                                        hist := s.hist ++ [.emit (toggle s.txLevel) d] }))

/-- Where EMIT and DEMODULATE have no meaning (41_bit_modulator.md R127, R139) and where the receive events have none
(42_receiver_fsm.md R151). R139 and R151 say `refuse`; R127 and 30_encoding.md R83 say only that `dur > 0`, and that EMIT
of 0, run on its own (log 9), is refused is the model's deduction (log 11), as are the names of the refusals. -/
def Obligations.RefusedForms : Prop :=
  ∀ s : State,
    (∀ lvl, exec (.emit lvl 0) s = .refused .zeroDuration) ∧
    exec (.demodulate []) s = .refused .noPreamble ∧
    (∀ t lvl, s.rxState ≠ .idle → t < s.rxLastTs →
      exec (.edge t lvl) s = .refused .timeBackwards ∧ exec (.idleCheck t) s = .refused .timeBackwards ∧
      exec (.sample t lvl) s = .refused .timeBackwards)

/-- Where an enabled TX_STEP cannot read its pulse: a packet buffer that holds no value (10_state.md R46) and an index
outside the buffer (20_memory.md R51). No run comes there: OnlyABackwardClockStops. -/
def Obligations.TxStepOutsideItsBuffer : Prop :=
  ∀ s : State, s.txState = .active → s.txPending = false → s.txIdx < s.txCount →
    (s.txSrc = .packet → s.txIdx ≠ 0 → s.pktValid = false → exec .txStep s = .fault .noValue) ∧
    (s.txSrc = .packet → s.txIdx ≠ 0 → s.pktValid = true → 6 + s.pktPay.length ≤ (s.txIdx - 1) / 8 →
      exec .txStep s = .refused .outOfBounds) ∧
    (s.txSrc = .raw → s.rawSeq.length ≤ s.txIdx → exec .txStep s = .refused .outOfBounds)

/-- 41_bit_modulator.md R127: the transaction is recorded in the output history. -/
def Obligations.EmitIsRecorded : Prop :=
  ∀ (s : State) (lvl : Level) (dur : Nat), 0 < dur →
    exec (.emit lvl dur) s = .next { s with hist := s.hist ++ [.emit lvl dur] }

/-- 41_bit_modulator.md R129: the whole operation. -/
def Obligations.EmitDoneResult : Prop :=
  ∀ s : State,
    (s.txPending = false → exec .emitDone s = .next s) ∧
    (s.txPending = true → s.txIdx ≠ s.txCount → exec .emitDone s = .next { s with txPending := false }) ∧
    (s.txPending = true → s.txIdx = s.txCount →
      exec .emitDone s = .next { s with txPending := false, txState := .idle, txLevel := s.cfg.idleLevel
                                        hist := s.hist ++ [.txDone] })

/-- 41_bit_modulator.md R131: the whole operation. -/
def Obligations.EmitFailResult : Prop :=
  ∀ s : State,
    (s.txPending = false → exec .emitFail s = .next s) ∧
    (s.txPending = true →
      exec .emitFail s = .next { s with txPending := false, txState := .fault, txLevel := s.cfg.idleLevel
                                        hist := s.hist ++ [.txFault .driverFault] })

/-- 30_encoding.md R75, 41_bit_modulator.md R121, R122: the three wire symbols. What a symbol does when it is run on
its own is log 10. -/
def Obligations.WireSymbolPulses : Prop :=
  ∀ s : State,
    exec .start s = .next { s with txLevel := toggle s.cfg.idleLevel
                                   hist := s.hist ++ [.emit (toggle s.cfg.idleLevel) (s.cfg.preUnits * s.cfg.tUnit)] } ∧
    exec .bit0 s = .next { s with txLevel := toggle s.txLevel
                                  hist := s.hist ++ [.emit (toggle s.txLevel) (s.cfg.shortUnits * s.cfg.tUnit)] } ∧
    exec .bit1 s = .next { s with txLevel := toggle s.txLevel
                                  hist := s.hist ++ [.emit (toggle s.txLevel) (s.cfg.longUnits * s.cfg.tUnit)] }

/-- 30_encoding.md R71, R76: START and then PACKET put the whole pulse sequence of the packet on the line, element `i`
at `toggle(IDLE_LEVEL)` for even `i` and at `IDLE_LEVEL` for odd `i` (log 10). -/
def Obligations.StartThenPacketOnTheWire : Prop :=
  ∀ (s : State) (p : Packet), ∃ t,
    exec .start s = .next t ∧
    exec (.packet p) t = .next { s with txLevel := toggle s.cfg.idleLevel
                                        hist := s.hist ++ packetEmits s.cfg p }

/-- 30_encoding.md R71, R75, 41_bit_modulator.md R122: PACKET from any level: one data pulse per bit of the wire bytes,
most significant bit first, the level toggling at every pulse; their number is even, so the level ends as it began
(log 10). -/
def Obligations.PacketOnTheWire : Prop :=
  ∀ (s : State) (p : Packet),
    exec (.packet p) s = .next
      { s with hist := s.hist ++
          ((packetBits p).mapIdx fun i b =>
            .emit (if i % 2 = 0 then toggle s.txLevel else s.txLevel) (pulseDur s.cfg b)) }

/-! ### The demodulator and the Decoder -/

/-- 41_bit_modulator.md R140: the threshold is the midpoint of the two classes scaled by the measured preamble. -/
def Obligations.ThresholdIsScaledMidpoint : Prop :=
  ∀ (c : Cfg) (pre d : Nat),
    sampleBit c pre d = false ↔
      (d : ℚ) < ((c.shortUnits : ℚ) + c.longUnits) * ((pre : ℚ) / c.preUnits) / 2

/-- 41_bit_modulator.md R143. -/
def Obligations.TiedSampleIsOne : Prop :=
  ∀ (c : Cfg) (pre d : Nat), 2 * d * c.preUnits = (c.shortUnits + c.longUnits) * pre → sampleBit c pre d = true

/-- 41_bit_modulator.md R142: sample `8j + k` gives bit `7 - k` of byte `j`. -/
def Obligations.DemodulatedBits : Prop :=
  ∀ (c : Cfg) (pre : Nat) (samples : List Nat) (bytes : List Byte), demodulate c pre samples = some bytes →
    bytes.length = samples.length / 8 ∧
    ∀ (j k : Nat) (b : Byte) (d : Nat), k ≤ 7 → bytes[j]? = some b → samples[8 * j + k]? = some d →
      b.getLsbD (7 - k) = sampleBit c pre d

/-- 41_bit_modulator.md R138, R141: DEMODULATE as a unit writes no register; its value stands in `fnOut` (log 8). -/
def Obligations.DemodulateResult : Prop :=
  ∀ (s : State) (pre : Nat) (samples : List Nat),
    (samples.length % 8 ≠ 0 → exec (.demodulate (pre :: samples)) s = .next { s with fnOut := .malformed }) ∧
    (samples.length % 8 = 0 →
      exec (.demodulate (pre :: samples)) s = .next { s with fnOut := .bytes (demodBytes s.cfg pre samples) })

/-- 41_bit_modulator.md R145: Demodulate is the inverse of Modulate. -/
def Obligations.DemodulateInvertsModulate : Prop :=
  ∀ (c : Cfg) (p : Packet), c.shortUnits < c.longUnits →
    ∃ pre samples, modulate c p = pre :: samples ∧ demodulate c pre samples = some (wireBytes p)

/-- 43_decoder.md R180, R188: DECODE and the order of its tests, by the demodulated bytes `b`. DECODE as a unit writes
no register; its value stands in `fnOut` (log 8). -/
def Obligations.DecodeResultInOrder : Prop :=
  ∀ (s : State) (pre : Nat) (samples : List Nat), ∃ r,
    exec (.decode pre samples) s = .next { s with fnOut := .decoded r } ∧ r = decodeFrame s.cfg pre samples ∧
    (demodulate s.cfg pre samples = none → r = .error .malformedBitstream) ∧
    ∀ b, demodulate s.cfg pre samples = some b →
      (b.length < 5 → r = .error .truncatedFrame) ∧
      ∀ len, b[4]? = some len →
        (b.length < 6 + len.toNat → r = .error .truncatedFrame) ∧
        (6 + len.toNat ≤ b.length → b.take 4 ≠ sigBytes s.cfg.signature → r = .error .signatureMismatch) ∧
        (6 + len.toNat ≤ b.length → b.take 4 = sigBytes s.cfg.signature →
          ∀ pay, pay = cipher s.cfg.cipherKey ((b.drop 5).take len.toNat) →
            (b[5 + len.toNat]? ≠ some (xorReduce pay) → r = .error .checksumMismatch) ∧
            (b[5 + len.toNat]? = some (xorReduce pay) → r = .ok s.cfg.signature len pay))

/-- 43_decoder.md R189: bytes beyond the packet change nothing. -/
def Obligations.BytesBeyondThePacketIgnored : Prop :=
  ∀ (c : Cfg) (b extra : List Byte) (len : Byte), b[4]? = some len → 6 + len.toNat ≤ b.length →
    decodeBytes c (b ++ extra) = decodeBytes c b

/-- 43_decoder.md R191: the round trip, for every payload of at most 255 bytes. -/
def Obligations.RoundTrip : Prop :=
  ∀ (c : Cfg) (p : List Byte), c.shortUnits < c.longUnits → p.length ≤ 255 →
    ∃ pre samples, modulate c (encodePacket c p) = pre :: samples ∧
      decodeFrame c pre samples = .ok c.signature (BitVec.ofNat 8 p.length) p

/-- 43_decoder.md R192, property P2: flipping any one bit of a transmitted payload byte is always caught. -/
def Obligations.FlippedPayloadBitIsCaught : Prop :=
  ∀ (c : Cfg) (p : List Byte) (i k : Nat), c.shortUnits < c.longUnits → p.length ≤ 255 → i < p.length → k < 8 →
    ∀ q : Packet, q = { encodePacket c p with
        pay := (cipher c.cipherKey p).modify i (fun b => b ^^^ BitVec.twoPow 8 k) } →
      ∃ pre samples, modulate c q = pre :: samples ∧ decodeFrame c pre samples = .error .checksumMismatch

/-! ### The receiver -/

/-- 42_receiver_fsm.md R152, R154 to R158: the whole operation, its time requirement included. -/
def Obligations.EdgeResult : Prop :=
  ∀ (s : State) (ts : Nat) (lvl : Level),
    (s.rxState ≠ .idle → ts < s.rxLastTs → exec (.edge ts lvl) s = .refused .timeBackwards) ∧
    (s.rxState = .idle →
      exec (.edge ts lvl) s = .next { s with rxLastTs := ts, rxLastLevel := lvl, rxState := .awaitingPreamble }) ∧
    (s.rxState ≠ .idle → s.rxLastTs ≤ ts → ts - s.rxLastTs ≤ s.cfg.rxRejectPeriod →
      exec (.edge ts lvl) s = .next s) ∧
    (s.rxState = .awaitingPreamble → s.rxLastTs ≤ ts → s.cfg.rxRejectPeriod < ts - s.rxLastTs →
      exec (.edge ts lvl) s = .next { s with rxPre := ts - s.rxLastTs, rxLastTs := ts, rxLastLevel := lvl
                                             rxState := .receiving }) ∧
    (s.rxState = .receiving → s.rxLastTs ≤ ts → s.cfg.rxRejectPeriod < ts - s.rxLastTs →
      (∀ cap, s.cfg.rxCap = some cap → s.rxSamples.length < cap) →
      exec (.edge ts lvl) s = .next { s with rxSamples := s.rxSamples ++ [ts - s.rxLastTs], rxLastTs := ts
                                             rxLastLevel := lvl }) ∧
    (∀ cap, s.rxState = .receiving → s.rxLastTs ≤ ts → s.cfg.rxRejectPeriod < ts - s.rxLastTs →
      s.cfg.rxCap = some cap → cap ≤ s.rxSamples.length →
      exec (.edge ts lvl) s = .next { s with rxOverflow := true, rxLastTs := ts, rxLastLevel := lvl })

/-- 42_receiver_fsm.md R156, property P3: a burst of edges within the noise floor, of any length and levels, changes
nothing. -/
def Obligations.NoiseBurstChangesNothing : Prop :=
  ∀ (s : State) (noise : List (Nat × Level)) (rest : List Turn), s.rxState ≠ .idle →
    (∀ e ∈ noise, s.rxLastTs ≤ e.1 ∧ e.1 - s.rxLastTs ≤ s.cfg.rxRejectPeriod) →
    s.turns = noise.map edgeTurn ++ rest →
    runSteps noise.length s = .next { s with turns := rest }

/-- 42_receiver_fsm.md R161, R164, R166 and 10_state.md R45: the idle checks that hand nothing over. -/
def Obligations.IdleCheckWithoutHandOff : Prop :=
  ∀ (s : State) (now : Nat),
    (s.rxState = .idle → exec (.idleCheck now) s = .next s) ∧
    (s.rxState ≠ .idle → s.rxLastTs ≤ now → now - s.rxLastTs ≤ s.cfg.rxEndPeriod →
      exec (.idleCheck now) s = .next s) ∧
    (s.rxState ≠ .idle → s.rxLastTs ≤ now → s.cfg.rxEndPeriod < now - s.rxLastTs →
      (s.rxSamples.length < s.cfg.minRxBytes ∨ s.rxPre ≤ s.cfg.rxRejectPeriod ∨ s.rxOverflow = true) →
      exec (.idleCheck now) s = .next { s with rxPre := 0, rxSamples := [], rxOverflow := false, rxLastLevel := .off
                                               rxLastTs := 0, rxState := .idle })

/-- 42_receiver_fsm.md R163 and 10_state.md R45, a frame that decodes. -/
def Obligations.HandOffOfDecodedFrame : Prop :=
  ∀ (s : State) (now : Nat) (sig : Sig) (len : Byte) (pay : List Byte),
    s.rxState ≠ .idle → s.rxLastTs ≤ now → s.cfg.rxEndPeriod < now - s.rxLastTs →
    s.cfg.minRxBytes ≤ s.rxSamples.length → s.cfg.rxRejectPeriod < s.rxPre → s.rxOverflow = false →
    decodeFrame s.cfg s.rxPre s.rxSamples = .ok sig len pay →
    exec (.idleCheck now) s = .next
      { s with resStatus := .ok, resSig := sig, resLen := len, resPay := pay, resValid := true
               resOverrun := s.resOverrun || s.resValid, resPre := s.rxPre, resSamples := s.rxSamples
               resLastLevel := s.rxLastLevel
               hist := s.hist ++ [.frameOut (.ok sig len pay) s.rxPre s.rxSamples s.rxLastLevel]
               rxPre := 0, rxSamples := [], rxOverflow := false, rxLastLevel := .off, rxLastTs := 0, rxState := .idle }

/-- 60_exceptions.md R222 to R224: a frame that does not decode is recorded and never stops the receiver. Its content
registers hold no defined value after it: the statement is for every value of the free values (log 6). -/
def Obligations.HandOffOfFailedFrame : Prop :=
  ∀ (s : State) (now : Nat) (e : DecodeError),
    s.rxState ≠ .idle → s.rxLastTs ≤ now → s.cfg.rxEndPeriod < now - s.rxLastTs →
    s.cfg.minRxBytes ≤ s.rxSamples.length → s.cfg.rxRejectPeriod < s.rxPre → s.rxOverflow = false →
    decodeFrame s.cfg s.rxPre s.rxSamples = .error e →
    ∃ (sig : Sig) (len : Byte) (pay : List Byte) (n : Nat), exec (.idleCheck now) s = .next
      { s with resStatus := errorStatus e, resSig := sig, resLen := len, resPay := pay, draws := n, resValid := true
               resOverrun := s.resOverrun || s.resValid, resPre := s.rxPre, resSamples := s.rxSamples
               resLastLevel := s.rxLastLevel
               hist := s.hist ++ [.frameOut (.error e) s.rxPre s.rxSamples s.rxLastLevel]
               rxPre := 0, rxSamples := [], rxOverflow := false, rxLastLevel := .off, rxLastTs := 0, rxState := .idle }

/-- 42_receiver_fsm.md R165, property P4: the timeout completes the frame, with at most one FrameOut, and however many
idle checks follow nothing more happens. -/
def Obligations.FrameCompletesExactlyOnce : Prop :=
  ∀ (s : State) (now : Nat) (later : List Nat) (rest : List Turn),
    s.rxState ≠ .idle → s.rxLastTs ≤ now → s.cfg.rxEndPeriod < now - s.rxLastTs →
    s.turns = idleTurn now :: (later.map idleTurn ++ rest) →
    ∃ t, runSteps 1 s = .next t ∧ t.rxState = .idle ∧
      (t.hist = s.hist ∨ ∃ r, t.hist = s.hist ++ [.frameOut r s.rxPre s.rxSamples s.rxLastLevel]) ∧
      runSteps (1 + later.length) s = .next { t with turns := rest }

/-- 42_receiver_fsm.md R168: the whole operation, over what IDLE_CHECK and EDGE do. -/
def Obligations.SampleResult : Prop :=
  ∀ (s t : State) (now : Nat) (lvl : Level), exec (.idleCheck now) s = .next t →
    (s.edValid = false → exec (.sample now lvl) s = .next { t with edValid := true, edLevel := lvl }) ∧
    (s.edValid = true → lvl = s.edLevel → exec (.sample now lvl) s = .next t) ∧
    (s.edValid = true → lvl ≠ s.edLevel → exec (.sample now lvl) s = exec (.edge now lvl) { t with edLevel := lvl })

/-- 42_receiver_fsm.md R168: SAMPLE completes in every state when the clock does not run backwards (R151). -/
def Obligations.SampleCompletes : Prop :=
  ∀ (s : State) (now : Nat) (lvl : Level), (s.rxState = .idle ∨ s.rxLastTs ≤ now) →
    ∃ t, exec (.sample now lvl) s = .next t ∧ t.edValid = true ∧ t.edLevel = lvl ∧ SameTransmit s t

/-- 42_receiver_fsm.md R171 (f): under SAMPLE, with an EDGE and an IDLE_CHECK presented at once, and with an EDGE
preceded by an IDLE_CHECK of the same time, no stored duration exceeds the idle timeout. -/
def Obligations.SampledDurationsWithinEndPeriod : Prop :=
  ∀ (s t : State) (now : Nat) (lvl : Level), WithinEndPeriod s →
    (exec (.sample now lvl) s = .next t → WithinEndPeriod t) ∧
    (∀ rest, s.turns = .edgeWithCheck now lvl :: rest → runSteps 2 s = .next t → WithinEndPeriod t) ∧
    (∀ rest, s.turns = idleTurn now :: edgeTurn (now, lvl) :: rest → runSteps 2 s = .next t → WithinEndPeriod t)

/-! ### System operations and flags -/

/-- 30_encoding.md R84: reserved codes, for every code and whatever stands on the operand ports. -/
def Obligations.ReservedCodesResult : Prop :=
  ∀ s : State,
    (∀ (op : BitVec 4) (pay : List Byte) (seq : List Nat), op = 0#4 ∨ 7 ≤ op.toNat →
      decode (.command op pay seq) = .cmdReserved op ∧
      exec (.cmdReserved op) s = .next { s with cmdStatus := .illegalCommand
                                                hist := s.hist ++ [.command (.cmdReserved op) .illegalCommand] }) ∧
    (∀ (ev : BitVec 3) (time : Nat) (lvl : Level), ev = 0#3 ∨ 6 ≤ ev.toNat →
      decode (.event ev time lvl) = .evtReserved ev ∧ exec (.evtReserved ev) s = .next s)

/-- 44_system_ops.md R202: the whole operation. -/
def Obligations.ResAckResult : Prop :=
  ∀ s : State, exec .resAck s = .next { s with resValid := false, cmdStatus := .ok
                                               hist := s.hist ++ [.command .resAck .ok] }

/-- 44_system_ops.md R200 with the reset values the spec gives in 10_state.md R46, for the command and for the reset
input; accepted in every state. That EmitCancel stands before the command's recorded answer (log 3), and that the reset
input is recorded by its EmitCancel alone (log 16), is the model's choice. -/
def Obligations.ResetResult : Prop :=
  ∀ s : State, ∃ t, exec .reset s = .next t ∧
    (t.hist = s.hist ++ (if s.txPending then [.emitCancel] else []) ++ [.command .reset .ok] ∧
      (resetBlock s).hist = s.hist ++ (if s.txPending then [.emitCancel] else [])) ∧
    { t with hist := [] } = { resetBlock s with hist := [] } ∧
    t.cfg = s.cfg ∧ t.pktValid = false ∧ t.rawSeq = [] ∧
    t.txState = .idle ∧ t.txIdx = 0 ∧ t.txCount = 0 ∧ t.txSrc = .packet ∧ t.txLevel = s.cfg.idleLevel ∧
    t.txPending = false ∧ t.rxState = .idle ∧ t.rxPre = 0 ∧ t.rxSamples = [] ∧ t.rxLastLevel = .off ∧
    t.rxLastTs = 0 ∧ t.rxOverflow = false ∧ t.edValid = false ∧ t.edLevel = .off ∧ t.resValid = false ∧
    t.resOverrun = false ∧ t.resStatus = .ok ∧ t.cmdStatus = .ok ∧ statusWord t = 0x00#8

/-- 70_reset_and_hazards.md R241: the state a run starts from. -/
def Obligations.StateAfterReset : Prop :=
  State.reset.pktValid = false ∧ State.reset.txState = .idle ∧ State.reset.txLevel = State.reset.cfg.idleLevel ∧
  State.reset.txPending = false ∧ State.reset.rxState = .idle ∧ State.reset.rxPre = 0 ∧ State.reset.rxSamples = [] ∧
  State.reset.rxOverflow = false ∧ State.reset.edValid = false ∧ State.reset.resValid = false ∧
  State.reset.resOverrun = false ∧ State.reset.cmdStatus = .ok

/-- 10_state.md R40: every bit of the STATUS word. -/
def Obligations.StatusWordBits : Prop :=
  ∀ s : State,
    ((statusWord s).getLsbD 0 = true ↔ s.txState = .active) ∧ (statusWord s).getLsbD 1 = s.pktValid ∧
    ((statusWord s).getLsbD 2 = true ↔ s.txState = .fault) ∧ (statusWord s).getLsbD 3 = s.resValid ∧
    (statusWord s).getLsbD 4 = s.resOverrun ∧ (statusWord s).getLsbD 5 = s.rxOverflow ∧
    (statusWord s).extractLsb' 6 2 = (match s.rxState with
      | .idle => 0#2
      | .awaitingPreamble => 1#2
      | .receiving => 2#2)

/-- 44_system_ops.md R203, 10_state.md R37, R46, 20_memory.md R52: what the host reads. A register that holds a value
reads as it; one that holds none cannot be read (log 7). -/
def Obligations.NoValueIsNotRead : Prop :=
  ∀ s : State,
    (s.pktValid = true → readPkt s = some (wireBytes (pktBuffer s))) ∧
    (s.pktValid = false → readPkt s = none) ∧
    (s.resValid = true → readResStatus s = some s.resStatus ∧ readResPre s = some s.resPre ∧
      readResSamples s = some s.resSamples ∧ readResLastLevel s = some s.resLastLevel) ∧
    (s.resValid = true → s.resStatus = .ok → readResSig s = some s.resSig ∧ readResLen s = some s.resLen ∧
      readResPay s = some s.resPay) ∧
    (s.resValid = false → readResStatus s = none ∧ readResPre s = none ∧ readResSamples s = none ∧
      readResLastLevel s = none ∧ readResSig s = none ∧ readResLen s = none ∧ readResPay s = none) ∧
    (s.resStatus ≠ .ok → readResSig s = none ∧ readResLen s = none ∧ readResPay s = none)

/-! ### The whole machine -/

/-- 42_receiver_fsm.md R171 and the invariants of 10_state.md R23 to R29, R37, R39: every step keeps them, from every
state that meets them. -/
def Obligations.StepKeepsInvariants : Prop :=
  ∀ s t : State, Inv s → step s = .next t → Inv t

/-- The state after reset meets the invariants. -/
def Obligations.ResetMeetsInvariants : Prop := Inv State.reset

/-- 42_receiver_fsm.md R172, 60_exceptions.md R212: from a state that meets the invariants a step never faults, and it
stops only when the time operand of the next input lies before the last accepted edge. -/
def Obligations.OnlyABackwardClockStops : Prop :=
  ∀ s : State, Inv s →
    SafeOutcome (step s) ∧
    ((∀ t, nextTime s = some t → s.rxState = .idle ∨ s.rxLastTs ≤ t) → ∃ t, step s = .next t)

/-- 44_system_ops.md R205, 10_state.md R22: no operation and no step writes the configuration. -/
def Obligations.ConfigurationIsNeverWritten : Prop :=
  (∀ (i : Instr) (s t : State), exec i s = .next t → t.cfg = s.cfg) ∧
  (∀ s t : State, step s = .next t → t.cfg = s.cfg)

/-- 20_memory.md R64: a transmit operation touches no receive or result register, a receive operation no transmit
register, and only RES_ACK of the receive operations writes `cmd_status`. -/
def Obligations.PipelinesDoNotTouchEachOther : Prop :=
  ∀ (i : Instr) (s t : State), exec i s = .next t →
    (transmitOp i = true → SameReceive s t ∧ t.draws = s.draws) ∧
    (receiveOp i = true → SameTransmit s t ∧ (i ≠ .resAck → t.cmdStatus = s.cmdStatus))

/-- 20_memory.md R64: a transmit and a receive operation commute, in the registers. -/
def Obligations.PipelinesCommute : Prop :=
  ∀ (i j : Instr) (s a b : State), transmitOp i = true → receiveOp j = true →
    exec i s = .next a → exec j s = .next b →
    ∃ x y, exec j a = .next x ∧ exec i b = .next y ∧ SameTransmit x y ∧ SameReceive x y ∧ x.cfg = y.cfg ∧
      (j ≠ .resAck → x.cmdStatus = y.cmdStatus)

/-- 10_state.md R44: nothing but ENCODE and RESET writes the packet buffer, nothing but REPLAY and
RESET the replay buffer, and only RESET clears `pkt_valid`, `res_overrun` and a transmitter fault (10_state.md R24, R26,
R37). -/
def Obligations.OwnersOfTheRegisters : Prop :=
  ∀ (i : Instr) (s t : State), exec i s = .next t → i ≠ .reset →
    ((∀ p, i ≠ .encode p) →
      t.pktSig = s.pktSig ∧ t.pktLen = s.pktLen ∧ t.pktPay = s.pktPay ∧ t.pktChk = s.pktChk ∧
      t.pktValid = s.pktValid) ∧
    ((∀ q, i ≠ .replay q) → t.rawSeq = s.rawSeq) ∧
    (s.pktValid = true → t.pktValid = true) ∧ (s.resOverrun = true → t.resOverrun = true) ∧
    (s.txState = .fault → s.txPending = false → t.txState = .fault)

/-- 60_exceptions.md R216: the output history only grows, in every operation and every step. -/
def Obligations.HistoryOnlyGrows : Prop :=
  (∀ (i : Instr) (s t : State), exec i s = .next t → ∃ es, t.hist = s.hist ++ es) ∧
  (∀ s t : State, step s = .next t → ∃ es, t.hist = s.hist ++ es)

/-- 41_bit_modulator.md R126 to R128, 10_state.md R29: at most one Emit is outstanding. A step that puts out an Emit puts
out that one alone, finds nothing outstanding, and emits at the toggled level for a positive duration. -/
def Obligations.OneEmitAtATime : Prop :=
  ∀ (s t : State) (es : List Event) (lvl : Level) (d : Nat),
    Inv s → step s = .next t → t.hist = s.hist ++ es → .emit lvl d ∈ es →
    es = [.emit lvl d] ∧ 0 < d ∧ s.txPending = false ∧ t.txPending = true ∧ lvl = toggle s.txLevel ∧
      t.txLevel = lvl ∧ t.txIdx = s.txIdx + 1

/-- 41_bit_modulator.md R136, with the driver's answers following at once: from MODULATE to TxDone the transmission
issues exactly the elements of `Modulate(packet)`, at the levels of 30_encoding.md R76, and one TxDone. -/
def Obligations.TransmissionEmitsTheModulatedPacket : Prop :=
  ∀ (s : State) (n : Nat) (rest : List Turn),
    s.txState = .idle → s.txPending = false → s.pktValid = true → s.pktPay.length = s.pktLen.toNat →
    n = 1 + 8 * (6 + s.pktLen.toNat) →
    s.turns = .input (.command 0x2#4 [] []) :: (handshakes n ++ rest) →
    runSteps (1 + 2 * n) s = .next
      { s with txSrc := .packet, txIdx := n, txCount := n, cmdStatus := .ok, txLevel := s.cfg.idleLevel, turns := rest
               hist := s.hist ++ [.command .modulate .ok] ++ packetEmits s.cfg (pktBuffer s) ++ [.txDone] }

/-- 41_bit_modulator.md R134: a replayed sequence goes out verbatim, at alternating levels, with one TxDone. -/
def Obligations.ReplayEmitsTheSequenceVerbatim : Prop :=
  ∀ (s : State) (seq : List Nat) (rest : List Turn),
    s.txState = .idle → s.txPending = false → seq ≠ [] → (∀ d ∈ seq, 0 < d) →
    (∀ cap, s.cfg.rawCap = some cap → seq.length ≤ cap) →
    s.turns = .input (.command 0x3#4 [] seq) :: (handshakes seq.length ++ rest) →
    runSteps (1 + 2 * seq.length) s = .next
      { s with rawSeq := seq, txSrc := .raw, txIdx := seq.length, txCount := seq.length, cmdStatus := .ok
               txLevel := s.cfg.idleLevel, turns := rest
               hist := s.hist ++ [.command (.replay seq) .ok]
                 ++ (seq.mapIdx fun i d => .emit (elementLevel s.cfg i) d) ++ [.txDone] }

/-- 30_encoding.md R78, 42_receiver_fsm.md R163, 43_decoder.md R191: the edges of a transmitted packet, measured
exactly, are received as that packet: under a well-formed configuration the idle check after the last edge hands over a
frame that decodes to the payload. -/
def Obligations.TransmittedPacketIsReceived : Prop :=
  ∀ (s : State) (p : List Byte) (t0 now : Nat) (rest : List Turn),
    CfgOK s.cfg → p.length ≤ 255 →
    s.rxState = .idle → s.rxPre = 0 → s.rxSamples = [] → s.rxOverflow = false →
    t0 + (modulate s.cfg (encodePacket s.cfg p)).sum + s.cfg.rxEndPeriod < now →
    s.turns = edgeTurns t0 (toggle s.cfg.idleLevel) (modulate s.cfg (encodePacket s.cfg p)) ++ (idleTurn now :: rest) →
    runSteps (2 + 8 * (6 + p.length) + 1) s = .next
      { s with resStatus := .ok, resSig := s.cfg.signature, resLen := BitVec.ofNat 8 p.length, resPay := p
               resValid := true, resOverrun := s.resOverrun || s.resValid, resPre := tPre s.cfg
               resSamples := (modulate s.cfg (encodePacket s.cfg p)).tail, resLastLevel := s.cfg.idleLevel
               rxLastLevel := .off, rxLastTs := 0, turns := rest
               hist := s.hist ++ [.frameOut (.ok s.cfg.signature (BitVec.ofNat 8 p.length) p) (tPre s.cfg)
                 (modulate s.cfg (encodePacket s.cfg p)).tail s.cfg.idleLevel] }
end

