-- ==== Sys2Proof/Laws/Codec.lean ====
section
/-! SUPPORT. What the pure functions of Machine/Codec.lean do, stated once. -/

namespace Sys2Proof.Machine

/-! ### Levels -/

@[simp] theorem toggle_toggle (l : Level) : toggle (toggle l) = l := by cases l <;> rfl

theorem toggle_ne (l : Level) : toggle l ≠ l := by cases l <;> decide

theorem elementLevel_succ (c : Cfg) (i : Nat) : elementLevel c (i + 1) = toggle (elementLevel c i) := by
  unfold elementLevel
  rcases Nat.mod_two_eq_zero_or_one i with h | h
  · have h' : (i + 1) % 2 = 1 := by omega
    simp [h, h']
  · have h' : (i + 1) % 2 = 0 := by omega
    simp [h, h']

/-! ### Durations: none is 0 (30_encoding.md R86) -/

theorem tPre_pos (c : Cfg) : 0 < tPre c := Nat.mul_pos c.preUnits_pos c.tUnit_pos

theorem pulseDur_pos (c : Cfg) (b : Bool) : 0 < pulseDur c b := by
  cases b
  · exact Nat.mul_pos c.shortUnits_pos c.tUnit_pos
  · exact Nat.mul_pos c.longUnits_pos c.tUnit_pos

/-- TICK is positive, whatever real it is (00_scope.md R8). -/
theorem tickSeconds_pos (c : Cfg) : 0 < c.tickSeconds := (Config.tickLength c.tick).pos

/-! ### Checksum and cipher -/

theorem xorReduce_foldl (a : Byte) (s : List Byte) : s.foldl (fun acc b => acc ^^^ b) a = a ^^^ xorReduce s := by
  unfold xorReduce
  induction s generalizing a with
  | nil => simp
  | cons b s ih => rw [List.foldl_cons, List.foldl_cons, ih, ih (0 ^^^ b)]; simp [BitVec.xor_assoc]

theorem xorReduce_cons (b : Byte) (s : List Byte) : xorReduce (b :: s) = b ^^^ xorReduce s := by
  rw [show xorReduce (b :: s) = s.foldl (fun acc b => acc ^^^ b) (0 ^^^ b) from rfl, xorReduce_foldl]
  simp

/-- Changing one byte of a sequence changes its reduction by the same difference. -/
theorem xorReduce_modify (s : List Byte) (i : Nat) (d : Byte) (hi : i < s.length) :
    xorReduce (s.modify i fun b => b ^^^ d) = xorReduce s ^^^ d := by
  induction s generalizing i with
  | nil => simp at hi
  | cons b s ih =>
    cases i with
    | zero => simp [xorReduce_cons, BitVec.xor_assoc, BitVec.xor_comm d]
    | succ i =>
      rw [List.modify_succ_cons, xorReduce_cons, xorReduce_cons, ih i (by simpa using hi), BitVec.xor_assoc]

theorem keyByte_mem (key : Vector Byte 16) (i : Nat) : key.toList[i % 16]? = some (keyByte key i) := by
  have h : i % 16 < 16 := Nat.mod_lt i (by decide)
  rw [List.getElem?_eq_getElem (by simpa using h)]
  simp [keyByte]

@[simp] theorem cipher_length (key : Vector Byte 16) (s : List Byte) : (cipher key s).length = s.length := by
  simp [cipher]

theorem cipher_getElem? (key : Vector Byte 16) (s : List Byte) (i : Nat) :
    (cipher key s)[i]? = (s[i]?).map (fun b => b ^^^ keyByte key i) := by
  simp [cipher]

/-- A change of one ciphered byte is the same change of the plain byte. -/
theorem cipher_modify (key : Vector Byte 16) (s : List Byte) (i : Nat) (d : Byte) :
    cipher key (s.modify i fun b => b ^^^ d) = (cipher key s).modify i fun b => b ^^^ d := by
  apply List.ext_getElem?
  intro j
  rw [cipher_getElem?, List.getElem?_modify, List.getElem?_modify, cipher_getElem?]
  cases h : s[j]? with
  | none => simp
  | some b =>
    by_cases hij : i = j
    · simp [hij, BitVec.xor_assoc, BitVec.xor_comm d]
    · simp [hij]

/-! ### Wire bytes and bits -/

@[simp] theorem wireBytes_length (p : Packet) : (wireBytes p).length = 6 + p.pay.length := by
  simp [wireBytes, sigBytes]; omega

@[simp] theorem bitsMsbFirst_length (b : Byte) : (bitsMsbFirst b).length = 8 := rfl

theorem bitsMsbFirst_getElem? (b : Byte) (k : Nat) (hk : k ≤ 7) :
    (bitsMsbFirst b)[k]? = some (b.getLsbD (7 - k)) := by
  interval_cases k <;> rfl

theorem flatMap_bits_length (w : List Byte) : (w.flatMap bitsMsbFirst).length = 8 * w.length := by
  induction w with
  | nil => rfl
  | cons b w ih => rw [List.flatMap_cons, List.length_append, ih, bitsMsbFirst_length, List.length_cons]; omega

theorem flatMap_bits_getElem? (w : List Byte) (j k : Nat) (b : Byte) (hk : k ≤ 7) (hb : w[j]? = some b) :
    (w.flatMap bitsMsbFirst)[8 * j + k]? = some (b.getLsbD (7 - k)) := by
  induction w generalizing j with
  | nil => simp at hb
  | cons c w ih =>
    rw [List.flatMap_cons]
    cases j with
    | zero =>
      obtain rfl : c = b := by simpa using hb
      rw [List.getElem?_append_left (by simp; omega)]
      simpa using bitsMsbFirst_getElem? c k hk
    | succ j =>
      rw [List.getElem?_append_right (by simp; omega), bitsMsbFirst_length,
        show 8 * (j + 1) + k - 8 = 8 * j + k by omega]
      exact ih j (by simpa using hb)

@[simp] theorem packetBits_length (p : Packet) : (packetBits p).length = 8 * (6 + p.pay.length) := by
  rw [packetBits, flatMap_bits_length, wireBytes_length]

@[simp] theorem modulate_length (c : Cfg) (p : Packet) : (modulate c p).length = 1 + 8 * (6 + p.pay.length) := by
  simp [modulate]; omega

/-! ### Bytes from bits -/

theorem byteOfBits_getLsbD (b0 b1 b2 b3 b4 b5 b6 b7 : Bool) (k : Nat) (hk : k ≤ 7) :
    [b0, b1, b2, b3, b4, b5, b6, b7][k]? = some ((byteOfBits b0 b1 b2 b3 b4 b5 b6 b7).getLsbD (7 - k)) := by
  interval_cases k <;> revert b0 b1 b2 b3 b4 b5 b6 b7 <;> decide

theorem byteOfBits_bits (b : Byte) :
    byteOfBits (b.getLsbD 7) (b.getLsbD 6) (b.getLsbD 5) (b.getLsbD 4) (b.getLsbD 3) (b.getLsbD 2) (b.getLsbD 1)
      (b.getLsbD 0) = b := by
  apply BitVec.eq_of_getLsbD_eq
  intro i hi
  have h := byteOfBits_getLsbD (b.getLsbD 7) (b.getLsbD 6) (b.getLsbD 5) (b.getLsbD 4) (b.getLsbD 3) (b.getLsbD 2)
    (b.getLsbD 1) (b.getLsbD 0) (7 - i) (by omega)
  rw [show 7 - (7 - i) = i by omega] at h
  have h2 := bitsMsbFirst_getElem? b (7 - i) (by omega)
  rw [show 7 - (7 - i) = i by omega] at h2
  exact Option.some.inj (h.symm.trans h2)

theorem demodBytes_length (c : Cfg) (pre : Nat) :
    ∀ samples : List Nat, (demodBytes c pre samples).length = samples.length / 8
  | [] => by simp [demodBytes]
  | [_] => by simp [demodBytes]
  | [_, _] => by simp [demodBytes]
  | [_, _, _] => by simp [demodBytes]
  | [_, _, _, _] => by simp [demodBytes]
  | [_, _, _, _, _] => by simp [demodBytes]
  | [_, _, _, _, _, _] => by simp [demodBytes]
  | [_, _, _, _, _, _, _] => by simp [demodBytes]
  | _ :: _ :: _ :: _ :: _ :: _ :: _ :: _ :: rest => by
    have h := demodBytes_length c pre rest
    simp only [demodBytes, List.length_cons, h]
    omega

/-- Samples that each decode to the bit they stand for give the bytes they stand for. -/
theorem demodBytes_flatMap (c : Cfg) (pre : Nat) (f : Bool → Nat) (hf : ∀ b, sampleBit c pre (f b) = b)
    (w : List Byte) : demodBytes c pre ((w.flatMap bitsMsbFirst).map f) = w := by
  induction w with
  | nil => rfl
  | cons b w ih =>
    rw [List.flatMap_cons, List.map_append]
    simp only [bitsMsbFirst, List.map_cons, List.map_nil, List.cons_append, List.nil_append, demodBytes, hf,
      byteOfBits_bits]
    exact congrArg (b :: ·) ih

theorem sampleBit_eq_false (c : Cfg) (pre d : Nat) :
    sampleBit c pre d = false ↔ 2 * d * c.preUnits < (c.shortUnits + c.longUnits) * pre := by
  simp [sampleBit]

/-- A pulse of an exactly measured frame decodes to its bit (41_bit_modulator.md R145). -/
theorem sampleBit_pulseDur (c : Cfg) (hsl : c.shortUnits < c.longUnits) (b : Bool) :
    sampleBit c (tPre c) (pulseDur c b) = b := by
  have hpos : 0 < c.preUnits * c.tUnit := tPre_pos c
  cases b with
  | false =>
    rw [sampleBit_eq_false]
    have h : 2 * c.shortUnits * (c.preUnits * c.tUnit) < (c.shortUnits + c.longUnits) * (c.preUnits * c.tUnit) :=
      (Nat.mul_lt_mul_right hpos).2 (by omega)
    simpa [pulseDur, tShort, tPre, Nat.mul_comm, Nat.mul_left_comm, Nat.mul_assoc] using h
  | true =>
    rw [← Bool.not_eq_false, sampleBit_eq_false, Nat.not_lt]
    have h : (c.shortUnits + c.longUnits) * (c.preUnits * c.tUnit) ≤ 2 * c.longUnits * (c.preUnits * c.tUnit) :=
      Nat.mul_le_mul_right _ (by omega)
    simpa [pulseDur, tLong, tPre, Nat.mul_comm, Nat.mul_left_comm, Nat.mul_assoc] using h

/-! ### The Decoder -/

/-- All that `decodeBytes` can do with a packet's worth of bytes. -/
theorem decodeBytes_cons (c : Cfg) (b0 b1 b2 b3 len : Byte) (rest : List Byte) :
    decodeBytes c (b0 :: b1 :: b2 :: b3 :: len :: rest) =
      if rest.length < 1 + len.toNat then .error .truncatedFrame
      else if (⟨b0, b1, b2, b3⟩ : Sig) ≠ c.signature then .error .signatureMismatch
      else if rest[len.toNat]? = some (xorReduce (cipher c.cipherKey (rest.take len.toNat))) then
        .ok ⟨b0, b1, b2, b3⟩ len (cipher c.cipherKey (rest.take len.toNat))
      else .error .checksumMismatch := by
  have h : (b0 :: b1 :: b2 :: b3 :: len :: rest).length < 6 + len.toNat ↔ rest.length < 1 + len.toNat := by
    simp only [List.length_cons]; omega
  simp only [decodeBytes, h]

/-- A successful decode: the signature is the configured one and the payload has the declared length. -/
theorem decodeBytes_ok {c : Cfg} {b : List Byte} {sig : Sig} {len : Byte} {pay : List Byte}
    (h : decodeBytes c b = .ok sig len pay) : sig = c.signature ∧ pay.length = len.toNat := by
  match b with
  | b0 :: b1 :: b2 :: b3 :: l :: rest =>
    rw [decodeBytes_cons] at h
    split at h
    · cases h
    · split at h
      · cases h
      · split at h
        · rename_i h1 h2 _
          injection h with e1 e2 e3
          subst e1 e2 e3
          refine ⟨not_not.1 h2, ?_⟩
          rw [cipher_length, List.length_take]
          omega
        · cases h
  | [] => cases h
  | [_] => cases h
  | [_, _] => cases h
  | [_, _, _] => cases h
  | [_, _, _, _] => cases h

theorem decodeFrame_ok {c : Cfg} {pre : Nat} {samples : List Nat} {sig : Sig} {len : Byte} {pay : List Byte}
    (h : decodeFrame c pre samples = .ok sig len pay) : sig = c.signature ∧ pay.length = len.toNat := by
  unfold decodeFrame at h
  split at h
  · cases h
  · exact decodeBytes_ok h

end Sys2Proof.Machine
end

