-- ==== Sys2Proof/Laws/State.lean ====
section
/-! SUPPORT. One lemma per field per shared record update, true by rfl: later proofs need not unfold an update. -/

namespace Sys2Proof.Machine

variable (s : State)

/-! ### out -/

@[simp] theorem out_cfg (e : Event) : (out e s).cfg = s.cfg := rfl
@[simp] theorem out_pktSig (e : Event) : (out e s).pktSig = s.pktSig := rfl
@[simp] theorem out_pktLen (e : Event) : (out e s).pktLen = s.pktLen := rfl
@[simp] theorem out_pktPay (e : Event) : (out e s).pktPay = s.pktPay := rfl
@[simp] theorem out_pktChk (e : Event) : (out e s).pktChk = s.pktChk := rfl
@[simp] theorem out_pktValid (e : Event) : (out e s).pktValid = s.pktValid := rfl
@[simp] theorem out_rawSeq (e : Event) : (out e s).rawSeq = s.rawSeq := rfl
@[simp] theorem out_txState (e : Event) : (out e s).txState = s.txState := rfl
@[simp] theorem out_txIdx (e : Event) : (out e s).txIdx = s.txIdx := rfl
@[simp] theorem out_txCount (e : Event) : (out e s).txCount = s.txCount := rfl
@[simp] theorem out_txSrc (e : Event) : (out e s).txSrc = s.txSrc := rfl
@[simp] theorem out_txLevel (e : Event) : (out e s).txLevel = s.txLevel := rfl
@[simp] theorem out_txPending (e : Event) : (out e s).txPending = s.txPending := rfl
@[simp] theorem out_rxState (e : Event) : (out e s).rxState = s.rxState := rfl
@[simp] theorem out_rxPre (e : Event) : (out e s).rxPre = s.rxPre := rfl
@[simp] theorem out_rxSamples (e : Event) : (out e s).rxSamples = s.rxSamples := rfl
@[simp] theorem out_rxLastLevel (e : Event) : (out e s).rxLastLevel = s.rxLastLevel := rfl
@[simp] theorem out_rxLastTs (e : Event) : (out e s).rxLastTs = s.rxLastTs := rfl
@[simp] theorem out_rxOverflow (e : Event) : (out e s).rxOverflow = s.rxOverflow := rfl
@[simp] theorem out_edValid (e : Event) : (out e s).edValid = s.edValid := rfl
@[simp] theorem out_edLevel (e : Event) : (out e s).edLevel = s.edLevel := rfl
@[simp] theorem out_resValid (e : Event) : (out e s).resValid = s.resValid := rfl
@[simp] theorem out_resOverrun (e : Event) : (out e s).resOverrun = s.resOverrun := rfl
@[simp] theorem out_resStatus (e : Event) : (out e s).resStatus = s.resStatus := rfl
@[simp] theorem out_resSig (e : Event) : (out e s).resSig = s.resSig := rfl
@[simp] theorem out_resLen (e : Event) : (out e s).resLen = s.resLen := rfl
@[simp] theorem out_resPay (e : Event) : (out e s).resPay = s.resPay := rfl
@[simp] theorem out_resPre (e : Event) : (out e s).resPre = s.resPre := rfl
@[simp] theorem out_resSamples (e : Event) : (out e s).resSamples = s.resSamples := rfl
@[simp] theorem out_resLastLevel (e : Event) : (out e s).resLastLevel = s.resLastLevel := rfl
@[simp] theorem out_cmdStatus (e : Event) : (out e s).cmdStatus = s.cmdStatus := rfl
@[simp] theorem out_turns (e : Event) : (out e s).turns = s.turns := rfl
@[simp] theorem out_hist (e : Event) : (out e s).hist = s.hist ++ [e] := rfl
@[simp] theorem out_fnOut (e : Event) : (out e s).fnOut = s.fnOut := rfl
@[simp] theorem out_draws (e : Event) : (out e s).draws = s.draws := rfl

/-! ### answer -/

@[simp] theorem answer_cfg (c : Instr) (st : Status) : (answer c st s).cfg = s.cfg := rfl
@[simp] theorem answer_pktSig (c : Instr) (st : Status) : (answer c st s).pktSig = s.pktSig := rfl
@[simp] theorem answer_pktLen (c : Instr) (st : Status) : (answer c st s).pktLen = s.pktLen := rfl
@[simp] theorem answer_pktPay (c : Instr) (st : Status) : (answer c st s).pktPay = s.pktPay := rfl
@[simp] theorem answer_pktChk (c : Instr) (st : Status) : (answer c st s).pktChk = s.pktChk := rfl
@[simp] theorem answer_pktValid (c : Instr) (st : Status) : (answer c st s).pktValid = s.pktValid := rfl
@[simp] theorem answer_rawSeq (c : Instr) (st : Status) : (answer c st s).rawSeq = s.rawSeq := rfl
@[simp] theorem answer_txState (c : Instr) (st : Status) : (answer c st s).txState = s.txState := rfl
@[simp] theorem answer_txIdx (c : Instr) (st : Status) : (answer c st s).txIdx = s.txIdx := rfl
@[simp] theorem answer_txCount (c : Instr) (st : Status) : (answer c st s).txCount = s.txCount := rfl
@[simp] theorem answer_txSrc (c : Instr) (st : Status) : (answer c st s).txSrc = s.txSrc := rfl
@[simp] theorem answer_txLevel (c : Instr) (st : Status) : (answer c st s).txLevel = s.txLevel := rfl
@[simp] theorem answer_txPending (c : Instr) (st : Status) : (answer c st s).txPending = s.txPending := rfl
@[simp] theorem answer_rxState (c : Instr) (st : Status) : (answer c st s).rxState = s.rxState := rfl
@[simp] theorem answer_rxPre (c : Instr) (st : Status) : (answer c st s).rxPre = s.rxPre := rfl
@[simp] theorem answer_rxSamples (c : Instr) (st : Status) : (answer c st s).rxSamples = s.rxSamples := rfl
@[simp] theorem answer_rxLastLevel (c : Instr) (st : Status) : (answer c st s).rxLastLevel = s.rxLastLevel := rfl
@[simp] theorem answer_rxLastTs (c : Instr) (st : Status) : (answer c st s).rxLastTs = s.rxLastTs := rfl
@[simp] theorem answer_rxOverflow (c : Instr) (st : Status) : (answer c st s).rxOverflow = s.rxOverflow := rfl
@[simp] theorem answer_edValid (c : Instr) (st : Status) : (answer c st s).edValid = s.edValid := rfl
@[simp] theorem answer_edLevel (c : Instr) (st : Status) : (answer c st s).edLevel = s.edLevel := rfl
@[simp] theorem answer_resValid (c : Instr) (st : Status) : (answer c st s).resValid = s.resValid := rfl
@[simp] theorem answer_resOverrun (c : Instr) (st : Status) : (answer c st s).resOverrun = s.resOverrun := rfl
@[simp] theorem answer_resStatus (c : Instr) (st : Status) : (answer c st s).resStatus = s.resStatus := rfl
@[simp] theorem answer_resSig (c : Instr) (st : Status) : (answer c st s).resSig = s.resSig := rfl
@[simp] theorem answer_resLen (c : Instr) (st : Status) : (answer c st s).resLen = s.resLen := rfl
@[simp] theorem answer_resPay (c : Instr) (st : Status) : (answer c st s).resPay = s.resPay := rfl
@[simp] theorem answer_resPre (c : Instr) (st : Status) : (answer c st s).resPre = s.resPre := rfl
@[simp] theorem answer_resSamples (c : Instr) (st : Status) : (answer c st s).resSamples = s.resSamples := rfl
@[simp] theorem answer_resLastLevel (c : Instr) (st : Status) : (answer c st s).resLastLevel = s.resLastLevel := rfl
@[simp] theorem answer_cmdStatus (c : Instr) (st : Status) : (answer c st s).cmdStatus = st := rfl
@[simp] theorem answer_turns (c : Instr) (st : Status) : (answer c st s).turns = s.turns := rfl
@[simp] theorem answer_hist (c : Instr) (st : Status) : (answer c st s).hist = s.hist ++ [.command c st] := rfl
@[simp] theorem answer_fnOut (c : Instr) (st : Status) : (answer c st s).fnOut = s.fnOut := rfl
@[simp] theorem answer_draws (c : Instr) (st : Status) : (answer c st s).draws = s.draws := rfl

/-! ### driverFault -/

@[simp] theorem driverFault_cfg : (driverFault s).cfg = s.cfg := rfl
@[simp] theorem driverFault_pktSig : (driverFault s).pktSig = s.pktSig := rfl
@[simp] theorem driverFault_pktLen : (driverFault s).pktLen = s.pktLen := rfl
@[simp] theorem driverFault_pktPay : (driverFault s).pktPay = s.pktPay := rfl
@[simp] theorem driverFault_pktChk : (driverFault s).pktChk = s.pktChk := rfl
@[simp] theorem driverFault_pktValid : (driverFault s).pktValid = s.pktValid := rfl
@[simp] theorem driverFault_rawSeq : (driverFault s).rawSeq = s.rawSeq := rfl
@[simp] theorem driverFault_txState : (driverFault s).txState = .fault := rfl
@[simp] theorem driverFault_txIdx : (driverFault s).txIdx = s.txIdx := rfl
@[simp] theorem driverFault_txCount : (driverFault s).txCount = s.txCount := rfl
@[simp] theorem driverFault_txSrc : (driverFault s).txSrc = s.txSrc := rfl
@[simp] theorem driverFault_txLevel : (driverFault s).txLevel = s.cfg.idleLevel := rfl
@[simp] theorem driverFault_txPending : (driverFault s).txPending = false := rfl
@[simp] theorem driverFault_rxState : (driverFault s).rxState = s.rxState := rfl
@[simp] theorem driverFault_rxPre : (driverFault s).rxPre = s.rxPre := rfl
@[simp] theorem driverFault_rxSamples : (driverFault s).rxSamples = s.rxSamples := rfl
@[simp] theorem driverFault_rxLastLevel : (driverFault s).rxLastLevel = s.rxLastLevel := rfl
@[simp] theorem driverFault_rxLastTs : (driverFault s).rxLastTs = s.rxLastTs := rfl
@[simp] theorem driverFault_rxOverflow : (driverFault s).rxOverflow = s.rxOverflow := rfl
@[simp] theorem driverFault_edValid : (driverFault s).edValid = s.edValid := rfl
@[simp] theorem driverFault_edLevel : (driverFault s).edLevel = s.edLevel := rfl
@[simp] theorem driverFault_resValid : (driverFault s).resValid = s.resValid := rfl
@[simp] theorem driverFault_resOverrun : (driverFault s).resOverrun = s.resOverrun := rfl
@[simp] theorem driverFault_resStatus : (driverFault s).resStatus = s.resStatus := rfl
@[simp] theorem driverFault_resSig : (driverFault s).resSig = s.resSig := rfl
@[simp] theorem driverFault_resLen : (driverFault s).resLen = s.resLen := rfl
@[simp] theorem driverFault_resPay : (driverFault s).resPay = s.resPay := rfl
@[simp] theorem driverFault_resPre : (driverFault s).resPre = s.resPre := rfl
@[simp] theorem driverFault_resSamples : (driverFault s).resSamples = s.resSamples := rfl
@[simp] theorem driverFault_resLastLevel : (driverFault s).resLastLevel = s.resLastLevel := rfl
@[simp] theorem driverFault_cmdStatus : (driverFault s).cmdStatus = s.cmdStatus := rfl
@[simp] theorem driverFault_turns : (driverFault s).turns = s.turns := rfl
@[simp] theorem driverFault_hist : (driverFault s).hist = s.hist ++ [.txFault .driverFault] := rfl
@[simp] theorem driverFault_fnOut : (driverFault s).fnOut = s.fnOut := rfl
@[simp] theorem driverFault_draws : (driverFault s).draws = s.draws := rfl

/-! ### pulseAt -/

@[simp] theorem pulseAt_cfg (l : Level) (d : Nat) : (pulseAt l d s).cfg = s.cfg := rfl
@[simp] theorem pulseAt_pktSig (l : Level) (d : Nat) : (pulseAt l d s).pktSig = s.pktSig := rfl
@[simp] theorem pulseAt_pktLen (l : Level) (d : Nat) : (pulseAt l d s).pktLen = s.pktLen := rfl
@[simp] theorem pulseAt_pktPay (l : Level) (d : Nat) : (pulseAt l d s).pktPay = s.pktPay := rfl
@[simp] theorem pulseAt_pktChk (l : Level) (d : Nat) : (pulseAt l d s).pktChk = s.pktChk := rfl
@[simp] theorem pulseAt_pktValid (l : Level) (d : Nat) : (pulseAt l d s).pktValid = s.pktValid := rfl
@[simp] theorem pulseAt_rawSeq (l : Level) (d : Nat) : (pulseAt l d s).rawSeq = s.rawSeq := rfl
@[simp] theorem pulseAt_txState (l : Level) (d : Nat) : (pulseAt l d s).txState = s.txState := rfl
@[simp] theorem pulseAt_txIdx (l : Level) (d : Nat) : (pulseAt l d s).txIdx = s.txIdx := rfl
@[simp] theorem pulseAt_txCount (l : Level) (d : Nat) : (pulseAt l d s).txCount = s.txCount := rfl
@[simp] theorem pulseAt_txSrc (l : Level) (d : Nat) : (pulseAt l d s).txSrc = s.txSrc := rfl
@[simp] theorem pulseAt_txLevel (l : Level) (d : Nat) : (pulseAt l d s).txLevel = l := rfl
@[simp] theorem pulseAt_txPending (l : Level) (d : Nat) : (pulseAt l d s).txPending = s.txPending := rfl
@[simp] theorem pulseAt_rxState (l : Level) (d : Nat) : (pulseAt l d s).rxState = s.rxState := rfl
@[simp] theorem pulseAt_rxPre (l : Level) (d : Nat) : (pulseAt l d s).rxPre = s.rxPre := rfl
@[simp] theorem pulseAt_rxSamples (l : Level) (d : Nat) : (pulseAt l d s).rxSamples = s.rxSamples := rfl
@[simp] theorem pulseAt_rxLastLevel (l : Level) (d : Nat) : (pulseAt l d s).rxLastLevel = s.rxLastLevel := rfl
@[simp] theorem pulseAt_rxLastTs (l : Level) (d : Nat) : (pulseAt l d s).rxLastTs = s.rxLastTs := rfl
@[simp] theorem pulseAt_rxOverflow (l : Level) (d : Nat) : (pulseAt l d s).rxOverflow = s.rxOverflow := rfl
@[simp] theorem pulseAt_edValid (l : Level) (d : Nat) : (pulseAt l d s).edValid = s.edValid := rfl
@[simp] theorem pulseAt_edLevel (l : Level) (d : Nat) : (pulseAt l d s).edLevel = s.edLevel := rfl
@[simp] theorem pulseAt_resValid (l : Level) (d : Nat) : (pulseAt l d s).resValid = s.resValid := rfl
@[simp] theorem pulseAt_resOverrun (l : Level) (d : Nat) : (pulseAt l d s).resOverrun = s.resOverrun := rfl
@[simp] theorem pulseAt_resStatus (l : Level) (d : Nat) : (pulseAt l d s).resStatus = s.resStatus := rfl
@[simp] theorem pulseAt_resSig (l : Level) (d : Nat) : (pulseAt l d s).resSig = s.resSig := rfl
@[simp] theorem pulseAt_resLen (l : Level) (d : Nat) : (pulseAt l d s).resLen = s.resLen := rfl
@[simp] theorem pulseAt_resPay (l : Level) (d : Nat) : (pulseAt l d s).resPay = s.resPay := rfl
@[simp] theorem pulseAt_resPre (l : Level) (d : Nat) : (pulseAt l d s).resPre = s.resPre := rfl
@[simp] theorem pulseAt_resSamples (l : Level) (d : Nat) : (pulseAt l d s).resSamples = s.resSamples := rfl
@[simp] theorem pulseAt_resLastLevel (l : Level) (d : Nat) : (pulseAt l d s).resLastLevel = s.resLastLevel := rfl
@[simp] theorem pulseAt_cmdStatus (l : Level) (d : Nat) : (pulseAt l d s).cmdStatus = s.cmdStatus := rfl
@[simp] theorem pulseAt_turns (l : Level) (d : Nat) : (pulseAt l d s).turns = s.turns := rfl
@[simp] theorem pulseAt_hist (l : Level) (d : Nat) : (pulseAt l d s).hist = s.hist ++ [.emit l d] := rfl
@[simp] theorem pulseAt_fnOut (l : Level) (d : Nat) : (pulseAt l d s).fnOut = s.fnOut := rfl
@[simp] theorem pulseAt_draws (l : Level) (d : Nat) : (pulseAt l d s).draws = s.draws := rfl

/-! ### togglePulse -/

@[simp] theorem togglePulse_cfg (d : Nat) : (togglePulse d s).cfg = s.cfg := rfl
@[simp] theorem togglePulse_pktSig (d : Nat) : (togglePulse d s).pktSig = s.pktSig := rfl
@[simp] theorem togglePulse_pktLen (d : Nat) : (togglePulse d s).pktLen = s.pktLen := rfl
@[simp] theorem togglePulse_pktPay (d : Nat) : (togglePulse d s).pktPay = s.pktPay := rfl
@[simp] theorem togglePulse_pktChk (d : Nat) : (togglePulse d s).pktChk = s.pktChk := rfl
@[simp] theorem togglePulse_pktValid (d : Nat) : (togglePulse d s).pktValid = s.pktValid := rfl
@[simp] theorem togglePulse_rawSeq (d : Nat) : (togglePulse d s).rawSeq = s.rawSeq := rfl
@[simp] theorem togglePulse_txState (d : Nat) : (togglePulse d s).txState = s.txState := rfl
@[simp] theorem togglePulse_txIdx (d : Nat) : (togglePulse d s).txIdx = s.txIdx := rfl
@[simp] theorem togglePulse_txCount (d : Nat) : (togglePulse d s).txCount = s.txCount := rfl
@[simp] theorem togglePulse_txSrc (d : Nat) : (togglePulse d s).txSrc = s.txSrc := rfl
@[simp] theorem togglePulse_txLevel (d : Nat) : (togglePulse d s).txLevel = toggle s.txLevel := rfl
@[simp] theorem togglePulse_txPending (d : Nat) : (togglePulse d s).txPending = s.txPending := rfl
@[simp] theorem togglePulse_rxState (d : Nat) : (togglePulse d s).rxState = s.rxState := rfl
@[simp] theorem togglePulse_rxPre (d : Nat) : (togglePulse d s).rxPre = s.rxPre := rfl
@[simp] theorem togglePulse_rxSamples (d : Nat) : (togglePulse d s).rxSamples = s.rxSamples := rfl
@[simp] theorem togglePulse_rxLastLevel (d : Nat) : (togglePulse d s).rxLastLevel = s.rxLastLevel := rfl
@[simp] theorem togglePulse_rxLastTs (d : Nat) : (togglePulse d s).rxLastTs = s.rxLastTs := rfl
@[simp] theorem togglePulse_rxOverflow (d : Nat) : (togglePulse d s).rxOverflow = s.rxOverflow := rfl
@[simp] theorem togglePulse_edValid (d : Nat) : (togglePulse d s).edValid = s.edValid := rfl
@[simp] theorem togglePulse_edLevel (d : Nat) : (togglePulse d s).edLevel = s.edLevel := rfl
@[simp] theorem togglePulse_resValid (d : Nat) : (togglePulse d s).resValid = s.resValid := rfl
@[simp] theorem togglePulse_resOverrun (d : Nat) : (togglePulse d s).resOverrun = s.resOverrun := rfl
@[simp] theorem togglePulse_resStatus (d : Nat) : (togglePulse d s).resStatus = s.resStatus := rfl
@[simp] theorem togglePulse_resSig (d : Nat) : (togglePulse d s).resSig = s.resSig := rfl
@[simp] theorem togglePulse_resLen (d : Nat) : (togglePulse d s).resLen = s.resLen := rfl
@[simp] theorem togglePulse_resPay (d : Nat) : (togglePulse d s).resPay = s.resPay := rfl
@[simp] theorem togglePulse_resPre (d : Nat) : (togglePulse d s).resPre = s.resPre := rfl
@[simp] theorem togglePulse_resSamples (d : Nat) : (togglePulse d s).resSamples = s.resSamples := rfl
@[simp] theorem togglePulse_resLastLevel (d : Nat) : (togglePulse d s).resLastLevel = s.resLastLevel := rfl
@[simp] theorem togglePulse_cmdStatus (d : Nat) : (togglePulse d s).cmdStatus = s.cmdStatus := rfl
@[simp] theorem togglePulse_turns (d : Nat) : (togglePulse d s).turns = s.turns := rfl
@[simp] theorem togglePulse_hist (d : Nat) : (togglePulse d s).hist = s.hist ++ [.emit (toggle s.txLevel) d] := rfl
@[simp] theorem togglePulse_fnOut (d : Nat) : (togglePulse d s).fnOut = s.fnOut := rfl
@[simp] theorem togglePulse_draws (d : Nat) : (togglePulse d s).draws = s.draws := rfl

/-! ### advanceTx -/

@[simp] theorem advanceTx_cfg : (advanceTx s).cfg = s.cfg := rfl
@[simp] theorem advanceTx_pktSig : (advanceTx s).pktSig = s.pktSig := rfl
@[simp] theorem advanceTx_pktLen : (advanceTx s).pktLen = s.pktLen := rfl
@[simp] theorem advanceTx_pktPay : (advanceTx s).pktPay = s.pktPay := rfl
@[simp] theorem advanceTx_pktChk : (advanceTx s).pktChk = s.pktChk := rfl
@[simp] theorem advanceTx_pktValid : (advanceTx s).pktValid = s.pktValid := rfl
@[simp] theorem advanceTx_rawSeq : (advanceTx s).rawSeq = s.rawSeq := rfl
@[simp] theorem advanceTx_txState : (advanceTx s).txState = s.txState := rfl
@[simp] theorem advanceTx_txIdx : (advanceTx s).txIdx = s.txIdx + 1 := rfl
@[simp] theorem advanceTx_txCount : (advanceTx s).txCount = s.txCount := rfl
@[simp] theorem advanceTx_txSrc : (advanceTx s).txSrc = s.txSrc := rfl
@[simp] theorem advanceTx_txLevel : (advanceTx s).txLevel = s.txLevel := rfl
@[simp] theorem advanceTx_txPending : (advanceTx s).txPending = true := rfl
@[simp] theorem advanceTx_rxState : (advanceTx s).rxState = s.rxState := rfl
@[simp] theorem advanceTx_rxPre : (advanceTx s).rxPre = s.rxPre := rfl
@[simp] theorem advanceTx_rxSamples : (advanceTx s).rxSamples = s.rxSamples := rfl
@[simp] theorem advanceTx_rxLastLevel : (advanceTx s).rxLastLevel = s.rxLastLevel := rfl
@[simp] theorem advanceTx_rxLastTs : (advanceTx s).rxLastTs = s.rxLastTs := rfl
@[simp] theorem advanceTx_rxOverflow : (advanceTx s).rxOverflow = s.rxOverflow := rfl
@[simp] theorem advanceTx_edValid : (advanceTx s).edValid = s.edValid := rfl
@[simp] theorem advanceTx_edLevel : (advanceTx s).edLevel = s.edLevel := rfl
@[simp] theorem advanceTx_resValid : (advanceTx s).resValid = s.resValid := rfl
@[simp] theorem advanceTx_resOverrun : (advanceTx s).resOverrun = s.resOverrun := rfl
@[simp] theorem advanceTx_resStatus : (advanceTx s).resStatus = s.resStatus := rfl
@[simp] theorem advanceTx_resSig : (advanceTx s).resSig = s.resSig := rfl
@[simp] theorem advanceTx_resLen : (advanceTx s).resLen = s.resLen := rfl
@[simp] theorem advanceTx_resPay : (advanceTx s).resPay = s.resPay := rfl
@[simp] theorem advanceTx_resPre : (advanceTx s).resPre = s.resPre := rfl
@[simp] theorem advanceTx_resSamples : (advanceTx s).resSamples = s.resSamples := rfl
@[simp] theorem advanceTx_resLastLevel : (advanceTx s).resLastLevel = s.resLastLevel := rfl
@[simp] theorem advanceTx_cmdStatus : (advanceTx s).cmdStatus = s.cmdStatus := rfl
@[simp] theorem advanceTx_turns : (advanceTx s).turns = s.turns := rfl
@[simp] theorem advanceTx_hist : (advanceTx s).hist = s.hist := rfl
@[simp] theorem advanceTx_fnOut : (advanceTx s).fnOut = s.fnOut := rfl
@[simp] theorem advanceTx_draws : (advanceTx s).draws = s.draws := rfl

/-! ### startTx -/

@[simp] theorem startTx_cfg (src : TxSrc) (n : Nat) : (startTx src n s).cfg = s.cfg := rfl
@[simp] theorem startTx_pktSig (src : TxSrc) (n : Nat) : (startTx src n s).pktSig = s.pktSig := rfl
@[simp] theorem startTx_pktLen (src : TxSrc) (n : Nat) : (startTx src n s).pktLen = s.pktLen := rfl
@[simp] theorem startTx_pktPay (src : TxSrc) (n : Nat) : (startTx src n s).pktPay = s.pktPay := rfl
@[simp] theorem startTx_pktChk (src : TxSrc) (n : Nat) : (startTx src n s).pktChk = s.pktChk := rfl
@[simp] theorem startTx_pktValid (src : TxSrc) (n : Nat) : (startTx src n s).pktValid = s.pktValid := rfl
@[simp] theorem startTx_rawSeq (src : TxSrc) (n : Nat) : (startTx src n s).rawSeq = s.rawSeq := rfl
@[simp] theorem startTx_txState (src : TxSrc) (n : Nat) : (startTx src n s).txState = .active := rfl
@[simp] theorem startTx_txIdx (src : TxSrc) (n : Nat) : (startTx src n s).txIdx = 0 := rfl
@[simp] theorem startTx_txCount (src : TxSrc) (n : Nat) : (startTx src n s).txCount = n := rfl
@[simp] theorem startTx_txSrc (src : TxSrc) (n : Nat) : (startTx src n s).txSrc = src := rfl
@[simp] theorem startTx_txLevel (src : TxSrc) (n : Nat) : (startTx src n s).txLevel = s.cfg.idleLevel := rfl
@[simp] theorem startTx_txPending (src : TxSrc) (n : Nat) : (startTx src n s).txPending = s.txPending := rfl
@[simp] theorem startTx_rxState (src : TxSrc) (n : Nat) : (startTx src n s).rxState = s.rxState := rfl
@[simp] theorem startTx_rxPre (src : TxSrc) (n : Nat) : (startTx src n s).rxPre = s.rxPre := rfl
@[simp] theorem startTx_rxSamples (src : TxSrc) (n : Nat) : (startTx src n s).rxSamples = s.rxSamples := rfl
@[simp] theorem startTx_rxLastLevel (src : TxSrc) (n : Nat) : (startTx src n s).rxLastLevel = s.rxLastLevel := rfl
@[simp] theorem startTx_rxLastTs (src : TxSrc) (n : Nat) : (startTx src n s).rxLastTs = s.rxLastTs := rfl
@[simp] theorem startTx_rxOverflow (src : TxSrc) (n : Nat) : (startTx src n s).rxOverflow = s.rxOverflow := rfl
@[simp] theorem startTx_edValid (src : TxSrc) (n : Nat) : (startTx src n s).edValid = s.edValid := rfl
@[simp] theorem startTx_edLevel (src : TxSrc) (n : Nat) : (startTx src n s).edLevel = s.edLevel := rfl
@[simp] theorem startTx_resValid (src : TxSrc) (n : Nat) : (startTx src n s).resValid = s.resValid := rfl
@[simp] theorem startTx_resOverrun (src : TxSrc) (n : Nat) : (startTx src n s).resOverrun = s.resOverrun := rfl
@[simp] theorem startTx_resStatus (src : TxSrc) (n : Nat) : (startTx src n s).resStatus = s.resStatus := rfl
@[simp] theorem startTx_resSig (src : TxSrc) (n : Nat) : (startTx src n s).resSig = s.resSig := rfl
@[simp] theorem startTx_resLen (src : TxSrc) (n : Nat) : (startTx src n s).resLen = s.resLen := rfl
@[simp] theorem startTx_resPay (src : TxSrc) (n : Nat) : (startTx src n s).resPay = s.resPay := rfl
@[simp] theorem startTx_resPre (src : TxSrc) (n : Nat) : (startTx src n s).resPre = s.resPre := rfl
@[simp] theorem startTx_resSamples (src : TxSrc) (n : Nat) : (startTx src n s).resSamples = s.resSamples := rfl
@[simp] theorem startTx_resLastLevel (src : TxSrc) (n : Nat) : (startTx src n s).resLastLevel = s.resLastLevel := rfl
@[simp] theorem startTx_cmdStatus (src : TxSrc) (n : Nat) : (startTx src n s).cmdStatus = s.cmdStatus := rfl
@[simp] theorem startTx_turns (src : TxSrc) (n : Nat) : (startTx src n s).turns = s.turns := rfl
@[simp] theorem startTx_hist (src : TxSrc) (n : Nat) : (startTx src n s).hist = s.hist := rfl
@[simp] theorem startTx_fnOut (src : TxSrc) (n : Nat) : (startTx src n s).fnOut = s.fnOut := rfl
@[simp] theorem startTx_draws (src : TxSrc) (n : Nat) : (startTx src n s).draws = s.draws := rfl

/-! ### finishTx -/

@[simp] theorem finishTx_cfg : (finishTx s).cfg = s.cfg := rfl
@[simp] theorem finishTx_pktSig : (finishTx s).pktSig = s.pktSig := rfl
@[simp] theorem finishTx_pktLen : (finishTx s).pktLen = s.pktLen := rfl
@[simp] theorem finishTx_pktPay : (finishTx s).pktPay = s.pktPay := rfl
@[simp] theorem finishTx_pktChk : (finishTx s).pktChk = s.pktChk := rfl
@[simp] theorem finishTx_pktValid : (finishTx s).pktValid = s.pktValid := rfl
@[simp] theorem finishTx_rawSeq : (finishTx s).rawSeq = s.rawSeq := rfl
@[simp] theorem finishTx_txState : (finishTx s).txState = .idle := rfl
@[simp] theorem finishTx_txIdx : (finishTx s).txIdx = s.txIdx := rfl
@[simp] theorem finishTx_txCount : (finishTx s).txCount = s.txCount := rfl
@[simp] theorem finishTx_txSrc : (finishTx s).txSrc = s.txSrc := rfl
@[simp] theorem finishTx_txLevel : (finishTx s).txLevel = s.cfg.idleLevel := rfl
@[simp] theorem finishTx_txPending : (finishTx s).txPending = s.txPending := rfl
@[simp] theorem finishTx_rxState : (finishTx s).rxState = s.rxState := rfl
@[simp] theorem finishTx_rxPre : (finishTx s).rxPre = s.rxPre := rfl
@[simp] theorem finishTx_rxSamples : (finishTx s).rxSamples = s.rxSamples := rfl
@[simp] theorem finishTx_rxLastLevel : (finishTx s).rxLastLevel = s.rxLastLevel := rfl
@[simp] theorem finishTx_rxLastTs : (finishTx s).rxLastTs = s.rxLastTs := rfl
@[simp] theorem finishTx_rxOverflow : (finishTx s).rxOverflow = s.rxOverflow := rfl
@[simp] theorem finishTx_edValid : (finishTx s).edValid = s.edValid := rfl
@[simp] theorem finishTx_edLevel : (finishTx s).edLevel = s.edLevel := rfl
@[simp] theorem finishTx_resValid : (finishTx s).resValid = s.resValid := rfl
@[simp] theorem finishTx_resOverrun : (finishTx s).resOverrun = s.resOverrun := rfl
@[simp] theorem finishTx_resStatus : (finishTx s).resStatus = s.resStatus := rfl
@[simp] theorem finishTx_resSig : (finishTx s).resSig = s.resSig := rfl
@[simp] theorem finishTx_resLen : (finishTx s).resLen = s.resLen := rfl
@[simp] theorem finishTx_resPay : (finishTx s).resPay = s.resPay := rfl
@[simp] theorem finishTx_resPre : (finishTx s).resPre = s.resPre := rfl
@[simp] theorem finishTx_resSamples : (finishTx s).resSamples = s.resSamples := rfl
@[simp] theorem finishTx_resLastLevel : (finishTx s).resLastLevel = s.resLastLevel := rfl
@[simp] theorem finishTx_cmdStatus : (finishTx s).cmdStatus = s.cmdStatus := rfl
@[simp] theorem finishTx_turns : (finishTx s).turns = s.turns := rfl
@[simp] theorem finishTx_hist : (finishTx s).hist = s.hist ++ [.txDone] := rfl
@[simp] theorem finishTx_fnOut : (finishTx s).fnOut = s.fnOut := rfl
@[simp] theorem finishTx_draws : (finishTx s).draws = s.draws := rfl

/-! ### abandonTx -/

@[simp] theorem abandonTx_cfg : (abandonTx s).cfg = s.cfg := rfl
@[simp] theorem abandonTx_pktSig : (abandonTx s).pktSig = s.pktSig := rfl
@[simp] theorem abandonTx_pktLen : (abandonTx s).pktLen = s.pktLen := rfl
@[simp] theorem abandonTx_pktPay : (abandonTx s).pktPay = s.pktPay := rfl
@[simp] theorem abandonTx_pktChk : (abandonTx s).pktChk = s.pktChk := rfl
@[simp] theorem abandonTx_pktValid : (abandonTx s).pktValid = s.pktValid := rfl
@[simp] theorem abandonTx_rawSeq : (abandonTx s).rawSeq = s.rawSeq := rfl
@[simp] theorem abandonTx_txState : (abandonTx s).txState = .idle := rfl
@[simp] theorem abandonTx_txIdx : (abandonTx s).txIdx = 0 := rfl
@[simp] theorem abandonTx_txCount : (abandonTx s).txCount = 0 := rfl
@[simp] theorem abandonTx_txSrc : (abandonTx s).txSrc = s.txSrc := rfl
@[simp] theorem abandonTx_txLevel : (abandonTx s).txLevel = s.cfg.idleLevel := rfl
@[simp] theorem abandonTx_txPending : (abandonTx s).txPending = false := rfl
@[simp] theorem abandonTx_rxState : (abandonTx s).rxState = s.rxState := rfl
@[simp] theorem abandonTx_rxPre : (abandonTx s).rxPre = s.rxPre := rfl
@[simp] theorem abandonTx_rxSamples : (abandonTx s).rxSamples = s.rxSamples := rfl
@[simp] theorem abandonTx_rxLastLevel : (abandonTx s).rxLastLevel = s.rxLastLevel := rfl
@[simp] theorem abandonTx_rxLastTs : (abandonTx s).rxLastTs = s.rxLastTs := rfl
@[simp] theorem abandonTx_rxOverflow : (abandonTx s).rxOverflow = s.rxOverflow := rfl
@[simp] theorem abandonTx_edValid : (abandonTx s).edValid = s.edValid := rfl
@[simp] theorem abandonTx_edLevel : (abandonTx s).edLevel = s.edLevel := rfl
@[simp] theorem abandonTx_resValid : (abandonTx s).resValid = s.resValid := rfl
@[simp] theorem abandonTx_resOverrun : (abandonTx s).resOverrun = s.resOverrun := rfl
@[simp] theorem abandonTx_resStatus : (abandonTx s).resStatus = s.resStatus := rfl
@[simp] theorem abandonTx_resSig : (abandonTx s).resSig = s.resSig := rfl
@[simp] theorem abandonTx_resLen : (abandonTx s).resLen = s.resLen := rfl
@[simp] theorem abandonTx_resPay : (abandonTx s).resPay = s.resPay := rfl
@[simp] theorem abandonTx_resPre : (abandonTx s).resPre = s.resPre := rfl
@[simp] theorem abandonTx_resSamples : (abandonTx s).resSamples = s.resSamples := rfl
@[simp] theorem abandonTx_resLastLevel : (abandonTx s).resLastLevel = s.resLastLevel := rfl
@[simp] theorem abandonTx_cmdStatus : (abandonTx s).cmdStatus = s.cmdStatus := rfl
@[simp] theorem abandonTx_turns : (abandonTx s).turns = s.turns := rfl
@[simp] theorem abandonTx_hist : (abandonTx s).hist = s.hist ++ cancelEvents s := rfl
@[simp] theorem abandonTx_fnOut : (abandonTx s).fnOut = s.fnOut := rfl
@[simp] theorem abandonTx_draws : (abandonTx s).draws = s.draws := rfl

/-! ### frameReset -/

@[simp] theorem frameReset_cfg : (frameReset s).cfg = s.cfg := rfl
@[simp] theorem frameReset_pktSig : (frameReset s).pktSig = s.pktSig := rfl
@[simp] theorem frameReset_pktLen : (frameReset s).pktLen = s.pktLen := rfl
@[simp] theorem frameReset_pktPay : (frameReset s).pktPay = s.pktPay := rfl
@[simp] theorem frameReset_pktChk : (frameReset s).pktChk = s.pktChk := rfl
@[simp] theorem frameReset_pktValid : (frameReset s).pktValid = s.pktValid := rfl
@[simp] theorem frameReset_rawSeq : (frameReset s).rawSeq = s.rawSeq := rfl
@[simp] theorem frameReset_txState : (frameReset s).txState = s.txState := rfl
@[simp] theorem frameReset_txIdx : (frameReset s).txIdx = s.txIdx := rfl
@[simp] theorem frameReset_txCount : (frameReset s).txCount = s.txCount := rfl
@[simp] theorem frameReset_txSrc : (frameReset s).txSrc = s.txSrc := rfl
@[simp] theorem frameReset_txLevel : (frameReset s).txLevel = s.txLevel := rfl
@[simp] theorem frameReset_txPending : (frameReset s).txPending = s.txPending := rfl
@[simp] theorem frameReset_rxState : (frameReset s).rxState = .idle := rfl
@[simp] theorem frameReset_rxPre : (frameReset s).rxPre = 0 := rfl
@[simp] theorem frameReset_rxSamples : (frameReset s).rxSamples = [] := rfl
@[simp] theorem frameReset_rxLastLevel : (frameReset s).rxLastLevel = .off := rfl
@[simp] theorem frameReset_rxLastTs : (frameReset s).rxLastTs = 0 := rfl
@[simp] theorem frameReset_rxOverflow : (frameReset s).rxOverflow = false := rfl
@[simp] theorem frameReset_edValid : (frameReset s).edValid = s.edValid := rfl
@[simp] theorem frameReset_edLevel : (frameReset s).edLevel = s.edLevel := rfl
@[simp] theorem frameReset_resValid : (frameReset s).resValid = s.resValid := rfl
@[simp] theorem frameReset_resOverrun : (frameReset s).resOverrun = s.resOverrun := rfl
@[simp] theorem frameReset_resStatus : (frameReset s).resStatus = s.resStatus := rfl
@[simp] theorem frameReset_resSig : (frameReset s).resSig = s.resSig := rfl
@[simp] theorem frameReset_resLen : (frameReset s).resLen = s.resLen := rfl
@[simp] theorem frameReset_resPay : (frameReset s).resPay = s.resPay := rfl
@[simp] theorem frameReset_resPre : (frameReset s).resPre = s.resPre := rfl
@[simp] theorem frameReset_resSamples : (frameReset s).resSamples = s.resSamples := rfl
@[simp] theorem frameReset_resLastLevel : (frameReset s).resLastLevel = s.resLastLevel := rfl
@[simp] theorem frameReset_cmdStatus : (frameReset s).cmdStatus = s.cmdStatus := rfl
@[simp] theorem frameReset_turns : (frameReset s).turns = s.turns := rfl
@[simp] theorem frameReset_hist : (frameReset s).hist = s.hist := rfl
@[simp] theorem frameReset_fnOut : (frameReset s).fnOut = s.fnOut := rfl
@[simp] theorem frameReset_draws : (frameReset s).draws = s.draws := rfl

/-! ### acceptEdge -/

@[simp] theorem acceptEdge_cfg (ts : Nat) (l : Level) : (acceptEdge ts l s).cfg = s.cfg := rfl
@[simp] theorem acceptEdge_pktSig (ts : Nat) (l : Level) : (acceptEdge ts l s).pktSig = s.pktSig := rfl
@[simp] theorem acceptEdge_pktLen (ts : Nat) (l : Level) : (acceptEdge ts l s).pktLen = s.pktLen := rfl
@[simp] theorem acceptEdge_pktPay (ts : Nat) (l : Level) : (acceptEdge ts l s).pktPay = s.pktPay := rfl
@[simp] theorem acceptEdge_pktChk (ts : Nat) (l : Level) : (acceptEdge ts l s).pktChk = s.pktChk := rfl
@[simp] theorem acceptEdge_pktValid (ts : Nat) (l : Level) : (acceptEdge ts l s).pktValid = s.pktValid := rfl
@[simp] theorem acceptEdge_rawSeq (ts : Nat) (l : Level) : (acceptEdge ts l s).rawSeq = s.rawSeq := rfl
@[simp] theorem acceptEdge_txState (ts : Nat) (l : Level) : (acceptEdge ts l s).txState = s.txState := rfl
@[simp] theorem acceptEdge_txIdx (ts : Nat) (l : Level) : (acceptEdge ts l s).txIdx = s.txIdx := rfl
@[simp] theorem acceptEdge_txCount (ts : Nat) (l : Level) : (acceptEdge ts l s).txCount = s.txCount := rfl
@[simp] theorem acceptEdge_txSrc (ts : Nat) (l : Level) : (acceptEdge ts l s).txSrc = s.txSrc := rfl
@[simp] theorem acceptEdge_txLevel (ts : Nat) (l : Level) : (acceptEdge ts l s).txLevel = s.txLevel := rfl
@[simp] theorem acceptEdge_txPending (ts : Nat) (l : Level) : (acceptEdge ts l s).txPending = s.txPending := rfl
@[simp] theorem acceptEdge_rxState (ts : Nat) (l : Level) : (acceptEdge ts l s).rxState = s.rxState := rfl
@[simp] theorem acceptEdge_rxPre (ts : Nat) (l : Level) : (acceptEdge ts l s).rxPre = s.rxPre := rfl
@[simp] theorem acceptEdge_rxSamples (ts : Nat) (l : Level) : (acceptEdge ts l s).rxSamples = s.rxSamples := rfl
@[simp] theorem acceptEdge_rxLastLevel (ts : Nat) (l : Level) : (acceptEdge ts l s).rxLastLevel = l := rfl
@[simp] theorem acceptEdge_rxLastTs (ts : Nat) (l : Level) : (acceptEdge ts l s).rxLastTs = ts := rfl
@[simp] theorem acceptEdge_rxOverflow (ts : Nat) (l : Level) : (acceptEdge ts l s).rxOverflow = s.rxOverflow := rfl
@[simp] theorem acceptEdge_edValid (ts : Nat) (l : Level) : (acceptEdge ts l s).edValid = s.edValid := rfl
@[simp] theorem acceptEdge_edLevel (ts : Nat) (l : Level) : (acceptEdge ts l s).edLevel = s.edLevel := rfl
@[simp] theorem acceptEdge_resValid (ts : Nat) (l : Level) : (acceptEdge ts l s).resValid = s.resValid := rfl
@[simp] theorem acceptEdge_resOverrun (ts : Nat) (l : Level) : (acceptEdge ts l s).resOverrun = s.resOverrun := rfl
@[simp] theorem acceptEdge_resStatus (ts : Nat) (l : Level) : (acceptEdge ts l s).resStatus = s.resStatus := rfl
@[simp] theorem acceptEdge_resSig (ts : Nat) (l : Level) : (acceptEdge ts l s).resSig = s.resSig := rfl
@[simp] theorem acceptEdge_resLen (ts : Nat) (l : Level) : (acceptEdge ts l s).resLen = s.resLen := rfl
@[simp] theorem acceptEdge_resPay (ts : Nat) (l : Level) : (acceptEdge ts l s).resPay = s.resPay := rfl
@[simp] theorem acceptEdge_resPre (ts : Nat) (l : Level) : (acceptEdge ts l s).resPre = s.resPre := rfl
@[simp] theorem acceptEdge_resSamples (ts : Nat) (l : Level) : (acceptEdge ts l s).resSamples = s.resSamples := rfl
@[simp] theorem acceptEdge_resLastLevel (ts : Nat) (l : Level) :
    (acceptEdge ts l s).resLastLevel = s.resLastLevel := rfl
@[simp] theorem acceptEdge_cmdStatus (ts : Nat) (l : Level) : (acceptEdge ts l s).cmdStatus = s.cmdStatus := rfl
@[simp] theorem acceptEdge_turns (ts : Nat) (l : Level) : (acceptEdge ts l s).turns = s.turns := rfl
@[simp] theorem acceptEdge_hist (ts : Nat) (l : Level) : (acceptEdge ts l s).hist = s.hist := rfl
@[simp] theorem acceptEdge_fnOut (ts : Nat) (l : Level) : (acceptEdge ts l s).fnOut = s.fnOut := rfl
@[simp] theorem acceptEdge_draws (ts : Nat) (l : Level) : (acceptEdge ts l s).draws = s.draws := rfl

/-! ### recordFrame -/

@[simp] theorem recordFrame_cfg (r : DecodeResult) : (recordFrame r s).cfg = s.cfg := rfl
@[simp] theorem recordFrame_pktSig (r : DecodeResult) : (recordFrame r s).pktSig = s.pktSig := rfl
@[simp] theorem recordFrame_pktLen (r : DecodeResult) : (recordFrame r s).pktLen = s.pktLen := rfl
@[simp] theorem recordFrame_pktPay (r : DecodeResult) : (recordFrame r s).pktPay = s.pktPay := rfl
@[simp] theorem recordFrame_pktChk (r : DecodeResult) : (recordFrame r s).pktChk = s.pktChk := rfl
@[simp] theorem recordFrame_pktValid (r : DecodeResult) : (recordFrame r s).pktValid = s.pktValid := rfl
@[simp] theorem recordFrame_rawSeq (r : DecodeResult) : (recordFrame r s).rawSeq = s.rawSeq := rfl
@[simp] theorem recordFrame_txState (r : DecodeResult) : (recordFrame r s).txState = s.txState := rfl
@[simp] theorem recordFrame_txIdx (r : DecodeResult) : (recordFrame r s).txIdx = s.txIdx := rfl
@[simp] theorem recordFrame_txCount (r : DecodeResult) : (recordFrame r s).txCount = s.txCount := rfl
@[simp] theorem recordFrame_txSrc (r : DecodeResult) : (recordFrame r s).txSrc = s.txSrc := rfl
@[simp] theorem recordFrame_txLevel (r : DecodeResult) : (recordFrame r s).txLevel = s.txLevel := rfl
@[simp] theorem recordFrame_txPending (r : DecodeResult) : (recordFrame r s).txPending = s.txPending := rfl
@[simp] theorem recordFrame_rxState (r : DecodeResult) : (recordFrame r s).rxState = s.rxState := rfl
@[simp] theorem recordFrame_rxPre (r : DecodeResult) : (recordFrame r s).rxPre = s.rxPre := rfl
@[simp] theorem recordFrame_rxSamples (r : DecodeResult) : (recordFrame r s).rxSamples = s.rxSamples := rfl
@[simp] theorem recordFrame_rxLastLevel (r : DecodeResult) : (recordFrame r s).rxLastLevel = s.rxLastLevel := rfl
@[simp] theorem recordFrame_rxLastTs (r : DecodeResult) : (recordFrame r s).rxLastTs = s.rxLastTs := rfl
@[simp] theorem recordFrame_rxOverflow (r : DecodeResult) : (recordFrame r s).rxOverflow = s.rxOverflow := rfl
@[simp] theorem recordFrame_edValid (r : DecodeResult) : (recordFrame r s).edValid = s.edValid := rfl
@[simp] theorem recordFrame_edLevel (r : DecodeResult) : (recordFrame r s).edLevel = s.edLevel := rfl
@[simp] theorem recordFrame_resValid (r : DecodeResult) : (recordFrame r s).resValid = true := rfl
@[simp] theorem recordFrame_resOverrun (r : DecodeResult) :
    (recordFrame r s).resOverrun = (s.resOverrun || s.resValid) := rfl
@[simp] theorem recordFrame_resStatus (r : DecodeResult) : (recordFrame r s).resStatus = resultStatus r := rfl
@[simp] theorem recordFrame_resSig (r : DecodeResult) : (recordFrame r s).resSig = s.resSig := rfl
@[simp] theorem recordFrame_resLen (r : DecodeResult) : (recordFrame r s).resLen = s.resLen := rfl
@[simp] theorem recordFrame_resPay (r : DecodeResult) : (recordFrame r s).resPay = s.resPay := rfl
@[simp] theorem recordFrame_resPre (r : DecodeResult) : (recordFrame r s).resPre = s.rxPre := rfl
@[simp] theorem recordFrame_resSamples (r : DecodeResult) : (recordFrame r s).resSamples = s.rxSamples := rfl
@[simp] theorem recordFrame_resLastLevel (r : DecodeResult) : (recordFrame r s).resLastLevel = s.rxLastLevel := rfl
@[simp] theorem recordFrame_cmdStatus (r : DecodeResult) : (recordFrame r s).cmdStatus = s.cmdStatus := rfl
@[simp] theorem recordFrame_turns (r : DecodeResult) : (recordFrame r s).turns = s.turns := rfl
@[simp] theorem recordFrame_hist (r : DecodeResult) :
    (recordFrame r s).hist = s.hist ++ [.frameOut r s.rxPre s.rxSamples s.rxLastLevel] := rfl
@[simp] theorem recordFrame_fnOut (r : DecodeResult) : (recordFrame r s).fnOut = s.fnOut := rfl
@[simp] theorem recordFrame_draws (r : DecodeResult) : (recordFrame r s).draws = s.draws := rfl

/-! ### resetBlock -/

@[simp] theorem resetBlock_cfg : (resetBlock s).cfg = s.cfg := rfl
@[simp] theorem resetBlock_pktSig : (resetBlock s).pktSig = ⟨0, 0, 0, 0⟩ := rfl
@[simp] theorem resetBlock_pktLen : (resetBlock s).pktLen = 0 := rfl
@[simp] theorem resetBlock_pktPay : (resetBlock s).pktPay = [] := rfl
@[simp] theorem resetBlock_pktChk : (resetBlock s).pktChk = 0 := rfl
@[simp] theorem resetBlock_pktValid : (resetBlock s).pktValid = false := rfl
@[simp] theorem resetBlock_rawSeq : (resetBlock s).rawSeq = [] := rfl
@[simp] theorem resetBlock_txState : (resetBlock s).txState = .idle := rfl
@[simp] theorem resetBlock_txIdx : (resetBlock s).txIdx = 0 := rfl
@[simp] theorem resetBlock_txCount : (resetBlock s).txCount = 0 := rfl
@[simp] theorem resetBlock_txSrc : (resetBlock s).txSrc = .packet := rfl
@[simp] theorem resetBlock_txLevel : (resetBlock s).txLevel = s.cfg.idleLevel := rfl
@[simp] theorem resetBlock_txPending : (resetBlock s).txPending = false := rfl
@[simp] theorem resetBlock_rxState : (resetBlock s).rxState = .idle := rfl
@[simp] theorem resetBlock_rxPre : (resetBlock s).rxPre = 0 := rfl
@[simp] theorem resetBlock_rxSamples : (resetBlock s).rxSamples = [] := rfl
@[simp] theorem resetBlock_rxLastLevel : (resetBlock s).rxLastLevel = .off := rfl
@[simp] theorem resetBlock_rxLastTs : (resetBlock s).rxLastTs = 0 := rfl
@[simp] theorem resetBlock_rxOverflow : (resetBlock s).rxOverflow = false := rfl
@[simp] theorem resetBlock_edValid : (resetBlock s).edValid = false := rfl
@[simp] theorem resetBlock_edLevel : (resetBlock s).edLevel = .off := rfl
@[simp] theorem resetBlock_resValid : (resetBlock s).resValid = false := rfl
@[simp] theorem resetBlock_resOverrun : (resetBlock s).resOverrun = false := rfl
@[simp] theorem resetBlock_resStatus : (resetBlock s).resStatus = .ok := rfl
@[simp] theorem resetBlock_resSig : (resetBlock s).resSig = ⟨0, 0, 0, 0⟩ := rfl
@[simp] theorem resetBlock_resLen : (resetBlock s).resLen = 0 := rfl
@[simp] theorem resetBlock_resPay : (resetBlock s).resPay = [] := rfl
@[simp] theorem resetBlock_resPre : (resetBlock s).resPre = 0 := rfl
@[simp] theorem resetBlock_resSamples : (resetBlock s).resSamples = [] := rfl
@[simp] theorem resetBlock_resLastLevel : (resetBlock s).resLastLevel = .off := rfl
@[simp] theorem resetBlock_cmdStatus : (resetBlock s).cmdStatus = .ok := rfl
@[simp] theorem resetBlock_turns : (resetBlock s).turns = s.turns := rfl
@[simp] theorem resetBlock_hist : (resetBlock s).hist = s.hist ++ cancelEvents s := rfl
@[simp] theorem resetBlock_fnOut : (resetBlock s).fnOut = s.fnOut := rfl
@[simp] theorem resetBlock_draws : (resetBlock s).draws = s.draws := rfl

end Sys2Proof.Machine
end

