-- ==== Sys2Proof/Laws/Ops.lean ====
section
/-! SUPPORT. One lemma per shared operation that says once everything it can do. -/

namespace Sys2Proof.Machine

/-! ### Outcomes -/

theorem andThen_next {r : Result} {f : State → Result} {t : State} :
    andThen r f = .next t ↔ ∃ u, r = .next u ∧ f u = .next t := by
  cases r <;> simp [andThen]

theorem andThen_refused {r : Result} {f : State → Result} {e : Refusal} :
    andThen r f = .refused e ↔ r = .refused e ∨ ∃ u, r = .next u ∧ f u = .refused e := by
  cases r <;> simp [andThen]

/-! ### Buffers: an access stays within the current elements, a read after a write gives what was written, and a write
changes nothing else (20_memory.md R51). -/

theorem memRead_one {α : Type} {buf : List α} {i : Nat} {v : α} :
    memRead buf i 1 = some [v] ↔ buf[i]? = some v := by
  unfold memRead
  by_cases h : i + 1 ≤ buf.length
  · have hi : i < buf.length := by omega
    rw [if_pos h, List.drop_eq_getElem_cons hi, List.getElem?_eq_getElem hi]
    show some [buf[i]] = some [v] ↔ some buf[i] = some v
    simp
  · have hi : buf.length ≤ i := by omega
    simp [h, List.getElem?_eq_none hi]

theorem memRead_length {α : Type} {buf v : List α} {i n : Nat} (h : memRead buf i n = some v) :
    v.length = n ∧ i + n ≤ buf.length := by
  unfold memRead at h
  split at h
  · obtain rfl := Option.some.inj h
    rw [List.length_take, List.length_drop]
    omega
  · cases h

theorem memWrite_length {α : Type} {buf v w : List α} {i : Nat} (h : memWrite buf i v = some w) :
    w.length = buf.length := by
  unfold memWrite at h
  split at h
  · obtain rfl := Option.some.inj h
    simp only [List.length_append, List.length_take, List.length_drop]
    omega
  · cases h

theorem memRead_after_memWrite {α : Type} {buf v w : List α} {i : Nat} (h : memWrite buf i v = some w) :
    memRead w i v.length = some v := by
  have hl := memWrite_length h
  unfold memWrite at h
  split at h
  · rename_i hb
    obtain rfl := Option.some.inj h
    unfold memRead
    rw [hl, if_pos hb, List.append_assoc, List.drop_append_of_le_length (by rw [List.length_take]; omega),
      List.drop_eq_nil_of_le (by rw [List.length_take]; omega)]
    simp
  · cases h

theorem memWrite_elsewhere {α : Type} {buf v w : List α} {i j : Nat} (h : memWrite buf i v = some w)
    (hj : j < i ∨ i + v.length ≤ j) : w[j]? = buf[j]? := by
  unfold memWrite at h
  split at h
  · obtain rfl := Option.some.inj h
    have ht : (buf.take i).length = i := by rw [List.length_take]; omega
    rcases hj with hj | hj
    · rw [List.append_assoc, List.getElem?_append_left (by omega), List.getElem?_take_of_lt hj]
    · rw [List.getElem?_append_right (by rw [List.length_append, ht]; exact hj), List.length_append, ht,
        List.getElem?_drop]
      congr 1
      omega
  · cases h

/-! ### The pulse a TX_STEP reads -/

theorem packetPulse_next {s : State} {d : Nat} :
    packetPulse s = .next d ↔
      (s.txIdx = 0 ∧ d = tPre s.cfg) ∨
      (s.txIdx ≠ 0 ∧ s.pktValid = true ∧ ∃ b, (wireBytes (pktBuffer s))[(s.txIdx - 1) / 8]? = some b ∧
        d = pulseDur s.cfg (b.getLsbD (7 - (s.txIdx - 1) % 8))) := by
  unfold packetPulse readPkt
  by_cases h0 : s.txIdx = 0
  · simp only [h0, if_true, true_and, ne_eq, not_true_eq_false, false_and, or_false, Host.Outcome.next.injEq]
    exact eq_comm
  · cases hv : s.pktValid with
    | false => simp [h0]
    | true =>
      simp only [h0, if_false, if_true, false_and, false_or, ne_eq, not_false_eq_true, true_and]
      constructor
      · intro h
        split at h
        · rename_i b hb
          injection h with hd
          exact ⟨b, memRead_one.1 hb, hd.symm⟩
        · cases h
      · rintro ⟨b, hb, rfl⟩
        rw [memRead_one.2 hb]

theorem rawPulse_next {s : State} {d : Nat} : rawPulse s = .next d ↔ s.rawSeq[s.txIdx]? = some d := by
  unfold rawPulse
  constructor
  · intro h
    split at h
    · rename_i v hv
      injection h with hd
      exact hd ▸ memRead_one.1 hv
    · cases h
  · intro h
    rw [memRead_one.2 h]

theorem nextPulse_packet {s : State} (h : s.txSrc = .packet) : nextPulse s = packetPulse s := by
  simp [nextPulse, h]

theorem nextPulse_raw {s : State} (h : s.txSrc = .raw) : nextPulse s = rawPulse s := by
  simp [nextPulse, h]

theorem txReady_iff {s : State} :
    txReady s = true ↔ s.txState = .active ∧ s.txPending = false ∧ s.txIdx < s.txCount := by
  simp [txReady]

/-- Everything a TX_STEP that completes does (41_bit_modulator.md R126). -/
theorem execTxStep_next {s t : State} :
    execTxStep s = .next t ↔ txReady s = true ∧ ∃ d, nextPulse s = .next d ∧ t = advanceTx (togglePulse d s) := by
  unfold execTxStep
  cases hr : txReady s with
  | false => simp
  | true =>
    cases hn : nextPulse s <;> simp [eq_comm]

/-! ### The receiver -/

theorem timeLegal_iff {s : State} {t : Nat} : timeLegal s t = true ↔ s.rxState = .idle ∨ s.rxLastTs ≤ t := by
  simp [timeLegal]

theorem timedOut_iff {s : State} {now : Nat} :
    timedOut now s = true ↔ s.rxState ≠ .idle ∧ s.cfg.rxEndPeriod < now - s.rxLastTs := by
  simp [timedOut]

theorem handOffCondition_iff {s : State} :
    handOffCondition s = true ↔
      s.cfg.minRxBytes ≤ s.rxSamples.length ∧ s.cfg.rxRejectPeriod < s.rxPre ∧ s.rxOverflow = false := by
  simp [handOffCondition]

/-- An operation of the receive side that refuses does so for the clock alone. -/
theorem edgeOp_legal {s : State} {ts : Nat} {lvl : Level} :
    (∃ t, edgeOp ts lvl s = .next t) ↔ timeLegal s ts = true := by
  unfold edgeOp
  cases hl : timeLegal s ts with
  | false => simp
  | true =>
    cases hs : s.rxState with
    | idle => simp
    | awaitingPreamble => by_cases hg : ts - s.rxLastTs ≤ s.cfg.rxRejectPeriod <;> simp [hg]
    | receiving => by_cases hg : ts - s.rxLastTs ≤ s.cfg.rxRejectPeriod <;> simp [hg]

/-- Everything an EDGE that completes can do (42_receiver_fsm.md R152). -/
theorem edgeOp_next {s t : State} {ts : Nat} {lvl : Level} (h : edgeOp ts lvl s = .next t) :
    (s.rxState = .idle ∧ t = { acceptEdge ts lvl s with rxState := .awaitingPreamble }) ∨
    (s.rxState ≠ .idle ∧ s.rxLastTs ≤ ts ∧ ts - s.rxLastTs ≤ s.cfg.rxRejectPeriod ∧ t = s) ∨
    (s.rxState = .awaitingPreamble ∧ s.rxLastTs ≤ ts ∧ s.cfg.rxRejectPeriod < ts - s.rxLastTs ∧
      t = { acceptEdge ts lvl s with rxPre := ts - s.rxLastTs, rxState := .receiving }) ∨
    (s.rxState = .receiving ∧ s.rxLastTs ≤ ts ∧ s.cfg.rxRejectPeriod < ts - s.rxLastTs ∧
      fitsCap s.cfg.rxCap (s.rxSamples.length + 1) = true ∧
      t = acceptEdge ts lvl { s with rxSamples := s.rxSamples ++ [ts - s.rxLastTs] }) ∨
    (s.rxState = .receiving ∧ s.rxLastTs ≤ ts ∧ s.cfg.rxRejectPeriod < ts - s.rxLastTs ∧
      fitsCap s.cfg.rxCap (s.rxSamples.length + 1) = false ∧ t = acceptEdge ts lvl { s with rxOverflow := true }) := by
  unfold edgeOp at h
  split at h
  · rename_i hl
    have hl' := timeLegal_iff.1 hl
    split at h
    · rename_i hs
      injection h with h
      exact .inl ⟨hs, h.symm⟩
    · rename_i hs
      have hts : s.rxLastTs ≤ ts := by simpa [hs] using hl'
      split at h
      · rename_i hg
        injection h with h
        exact .inr (.inl ⟨by simp [hs], hts, hg, h.symm⟩)
      · rename_i hg
        injection h with h
        exact .inr (.inr (.inl ⟨hs, hts, by omega, h.symm⟩))
    · rename_i hs
      have hts : s.rxLastTs ≤ ts := by simpa [hs] using hl'
      split at h
      · rename_i hg
        injection h with h
        exact .inr (.inl ⟨by simp [hs], hts, hg, h.symm⟩)
      · rename_i hg
        injection h with h
        unfold appendSample at h
        split at h
        · rename_i hc
          exact .inr (.inr (.inr (.inl ⟨hs, hts, by omega, hc, h.symm⟩)))
        · rename_i hc
          exact .inr (.inr (.inr (.inr ⟨hs, hts, by omega, by simpa using hc, h.symm⟩)))
  · cases h

theorem idleCheckOp_legal {s : State} {now : Nat} :
    (∃ t, idleCheckOp now s = .next t) ↔ timeLegal s now = true := by
  unfold idleCheckOp
  cases hl : timeLegal s now with
  | false => simp
  | true => cases timedOut now s <;> simp

/-- Everything an IDLE_CHECK that completes can do (42_receiver_fsm.md R160). -/
theorem idleCheckOp_next {s t : State} {now : Nat} (h : idleCheckOp now s = .next t) :
    timeLegal s now = true ∧
    ((timedOut now s = false ∧ t = s) ∨
      (timedOut now s = true ∧ handOffCondition s = false ∧ t = frameReset s) ∨
      (timedOut now s = true ∧ handOffCondition s = true ∧ t = frameReset (handOff s))) := by
  unfold idleCheckOp at h
  split at h
  · rename_i hl
    refine ⟨hl, ?_⟩
    split at h
    · rename_i hto
      injection h with h
      unfold completeFrame at h
      cases hc : handOffCondition s with
      | false => exact .inr (.inl ⟨hto, rfl, by simpa [hc] using h.symm⟩)
      | true => exact .inr (.inr ⟨hto, rfl, by simpa [hc] using h.symm⟩)
    · rename_i hto
      injection h with h
      exact .inl ⟨by simpa using hto, h.symm⟩
  · cases h

/-- Everything the hand-off writes, with the content registers as they come (42_receiver_fsm.md R163). -/
theorem handOff_cases (s : State) :
    (∃ sig len pay, decodeFrame s.cfg s.rxPre s.rxSamples = .ok sig len pay ∧
      handOff s = recordFrame (.ok sig len pay) { s with resSig := sig, resLen := len, resPay := pay }) ∨
    (∃ e sig len pay, decodeFrame s.cfg s.rxPre s.rxSamples = .error e ∧ pay.length ≤ 255 ∧
      handOff s = recordFrame (.error e)
        { s with resSig := sig, resLen := len, resPay := pay, draws := s.draws + 1 }) := by
  unfold handOff
  cases h : decodeFrame s.cfg s.rxPre s.rxSamples with
  | ok sig len pay => exact .inl ⟨sig, len, pay, rfl, rfl⟩
  | error e => exact .inr ⟨e, _, _, _, rfl, by simp, rfl⟩

theorem edgeDetect_next {s t : State} {now : Nat} {lvl : Level} (h : edgeDetect now lvl s = .next t) :
    (s.edValid = false ∧ t = { s with edValid := true, edLevel := lvl }) ∨
    (s.edValid = true ∧ lvl = s.edLevel ∧ t = s) ∨
    (s.edValid = true ∧ lvl ≠ s.edLevel ∧ edgeOp now lvl { s with edLevel := lvl } = .next t) := by
  unfold edgeDetect at h
  split at h
  · rename_i hv
    split at h
    · rename_i hl
      injection h with h
      exact .inr (.inl ⟨hv, hl, h.symm⟩)
    · rename_i hl
      exact .inr (.inr ⟨hv, hl, h⟩)
  · rename_i hv
    injection h with h
    exact .inl ⟨by simpa using hv, h.symm⟩

/-! ### Frames of the receive operations -/

@[simp] theorem handOff_cfg (s : State) : (handOff s).cfg = s.cfg := by
  rcases handOff_cases s with ⟨_, _, _, _, h⟩ | ⟨_, _, _, _, _, _, h⟩ <;> rw [h] <;> rfl

/-- An IDLE_CHECK leaves the configuration, the edge detector, `cmd_status`, the turns and `fnOut` alone. -/
theorem idleCheckOp_frame {s t : State} {now : Nat} (h : idleCheckOp now s = .next t) :
    t.cfg = s.cfg ∧ t.edValid = s.edValid ∧ t.edLevel = s.edLevel ∧ t.cmdStatus = s.cmdStatus ∧ t.turns = s.turns ∧
      t.fnOut = s.fnOut := by
  obtain ⟨_, ⟨_, rfl⟩ | ⟨_, _, rfl⟩ | ⟨_, _, rfl⟩⟩ := idleCheckOp_next h
  · exact ⟨rfl, rfl, rfl, rfl, rfl, rfl⟩
  · exact ⟨rfl, rfl, rfl, rfl, rfl, rfl⟩
  · rcases handOff_cases s with ⟨_, _, _, _, h⟩ | ⟨_, _, _, _, _, _, h⟩ <;> rw [h] <;> exact ⟨rfl, rfl, rfl, rfl, rfl, rfl⟩

/-- The hand-off appends its one `FrameOut` to the history (30_encoding.md R90). -/
theorem handOff_hist (s : State) :
    (handOff s).hist = s.hist ++
      [.frameOut (decodeFrame s.cfg s.rxPre s.rxSamples) s.rxPre s.rxSamples s.rxLastLevel] := by
  rcases handOff_cases s with ⟨_, _, _, hd, h⟩ | ⟨_, _, _, _, hd, _, h⟩ <;> rw [h, hd] <;> rfl

/-- An IDLE_CHECK leaves the transmit side alone (20_memory.md R64). -/
theorem idleCheckOp_sameTransmit {s t : State} {now : Nat} (h : idleCheckOp now s = .next t) : SameTransmit s t := by
  obtain ⟨_, ⟨_, rfl⟩ | ⟨_, _, rfl⟩ | ⟨_, _, rfl⟩⟩ := idleCheckOp_next h
  · constructor <;> rfl
  · constructor <;> rfl
  · rcases handOff_cases s with ⟨_, _, _, _, h⟩ | ⟨_, _, _, _, _, _, h⟩ <;> rw [h] <;> constructor <;> rfl

/-- An EDGE leaves the transmit side alone (20_memory.md R64). -/
theorem edgeOp_sameTransmit {s t : State} {ts : Nat} {lvl : Level} (h : edgeOp ts lvl s = .next t) :
    SameTransmit s t := by
  obtain ⟨_, rfl⟩ | ⟨_, _, _, rfl⟩ | ⟨_, _, _, rfl⟩ | ⟨_, _, _, _, rfl⟩ | ⟨_, _, _, _, rfl⟩ := edgeOp_next h <;>
    constructor <;> rfl

/-! ### Steps -/

/-- Everything a step can be: one lemma from which every statement about a step starts. -/
theorem step_cases (s : State) :
    (s.turns = [] ∧ step s = ownStep s) ∨
    (∃ rest, s.turns = .own :: rest ∧ step s = ownStep { s with turns := rest }) ∨
    (∃ x rest, s.turns = .input x :: rest ∧ step s = exec (decode x) { s with turns := rest }) ∨
    (∃ rest, s.turns = .resetInput :: rest ∧ step s = .next (resetBlock { s with turns := rest })) ∨
    (∃ ts lvl rest, s.turns = .edgeWithCheck ts lvl :: rest ∧
      step s = exec (.idleCheck ts) { s with turns := .input (.event 0x1#3 ts lvl) :: rest }) := by
  unfold step
  cases h : s.turns with
  | nil => exact .inl ⟨rfl, rfl⟩
  | cons a rest =>
    cases a with
    | own => exact .inr (.inl ⟨rest, rfl, rfl⟩)
    | input x => exact .inr (.inr (.inl ⟨x, rest, rfl, rfl⟩))
    | resetInput => exact .inr (.inr (.inr (.inl ⟨rest, rfl, rfl⟩)))
    | edgeWithCheck ts lvl => exact .inr (.inr (.inr (.inr ⟨ts, lvl, rest, rfl, rfl⟩)))

theorem step_input {s : State} {x : Input} {rest : List Turn} (h : s.turns = .input x :: rest) :
    step s = exec (decode x) { s with turns := rest } := by
  simp [step, h, takeTurn]

/-! ### Runs -/

@[simp] theorem runSteps_zero (s : State) : runSteps 0 s = .next s := rfl

theorem core_run_succ_next (M : Host.Core) {k : Nat} {s u : M.State} :
    M.run (k + 1) s = .next u ↔ ∃ t, M.step s = .next t ∧ M.run k t = .next u := by
  rw [Host.Core.run]
  cases M.step s <;> simp

/-- A run that completes takes its steps one after the other. -/
theorem runSteps_succ_next {k : Nat} {s u : State} :
    runSteps (k + 1) s = .next u ↔ ∃ t, step s = .next t ∧ runSteps k t = .next u :=
  core_run_succ_next Sys2Proof.core

theorem core_run_succ (M : Host.Core) {s t : M.State} (k : Nat) (h : M.step s = .next t) :
    M.run (k + 1) s = M.run k t := by
  rw [Host.Core.run, h]

theorem runSteps_succ {s t : State} (k : Nat) (h : step s = .next t) : runSteps (k + 1) s = runSteps k t :=
  core_run_succ Sys2Proof.core k h

theorem runSteps_add {s t : State} (a b : Nat) (h : runSteps a s = .next t) :
    runSteps (a + b) s = runSteps b t := by
  induction a generalizing s with
  | zero => cases h; rw [Nat.zero_add]
  | succ a ih =>
    obtain ⟨u, hs, hu⟩ := runSteps_succ_next.1 h
    rw [show a + 1 + b = a + b + 1 by omega, runSteps_succ _ hs]
    exact ih hu

end Sys2Proof.Machine
end

