-- ==== Sys2Proof/Laws/PerInstr.lean ====
section
/-! SUPPORT. The per-instruction family of LAWS.json: an operation is presented on the port of its format, and the
formats AUTO, FUNC, OUT and WIRE have no code (30_encoding.md R81, R82). -/

namespace Sys2Proof.Laws

def HasCode.Statement (i : Instr) : Prop :=
  match formatOf i with
  | .cmd => ∃ op payload seq, encode i = some (.command op payload seq)
  | .evt => ∃ ev time level, encode i = some (.event ev time level)
  | .auto => encode i = none
  | .func => encode i = none
  | .out => encode i = none
  | .wire => encode i = none

theorem HasCode.encode (payload : List Byte) : HasCode.Statement (.encode payload) := ⟨_, _, _, rfl⟩
theorem HasCode.modulate : HasCode.Statement .modulate := ⟨_, _, _, rfl⟩
theorem HasCode.replay (seq : List Nat) : HasCode.Statement (.replay seq) := ⟨_, _, _, rfl⟩
theorem HasCode.cancel : HasCode.Statement .cancel := ⟨_, _, _, rfl⟩
theorem HasCode.resAck : HasCode.Statement .resAck := ⟨_, _, _, rfl⟩
theorem HasCode.reset : HasCode.Statement .reset := ⟨_, _, _, rfl⟩
theorem HasCode.edge (ts : Nat) (lvl : Level) : HasCode.Statement (.edge ts lvl) := ⟨_, _, _, rfl⟩
theorem HasCode.idleCheck (now : Nat) : HasCode.Statement (.idleCheck now) := ⟨_, _, _, rfl⟩
theorem HasCode.sample (now : Nat) (lvl : Level) : HasCode.Statement (.sample now lvl) := ⟨_, _, _, rfl⟩
theorem HasCode.emitDone : HasCode.Statement .emitDone := ⟨_, _, _, rfl⟩
theorem HasCode.emitFail : HasCode.Statement .emitFail := ⟨_, _, _, rfl⟩
theorem HasCode.txStep : HasCode.Statement .txStep := rfl
theorem HasCode.demodulate (seq : List Nat) : HasCode.Statement (.demodulate seq) := rfl
theorem HasCode.decode (pre : Nat) (samples : List Nat) : HasCode.Statement (.decode pre samples) := rfl
theorem HasCode.emit (level : Level) (dur : Nat) : HasCode.Statement (.emit level dur) := rfl
theorem HasCode.cmdReserved (op : BitVec 4) : HasCode.Statement (.cmdReserved op) := ⟨_, _, _, rfl⟩
theorem HasCode.evtReserved (ev : BitVec 3) : HasCode.Statement (.evtReserved ev) := ⟨_, _, _, rfl⟩
theorem HasCode.packet (pkt : Packet) : HasCode.Statement (.packet pkt) := rfl
theorem HasCode.start : HasCode.Statement .start := rfl
theorem HasCode.bit0 : HasCode.Statement .bit0 := rfl
theorem HasCode.bit1 : HasCode.Statement .bit1 := rfl

end Sys2Proof.Laws
end

