-- ==== Sys2Proof/Tests/Slice0.lean ====
section
/-! SUPPORT. Tests of one step each, from the worked examples and vectors of the spec, and one witness for every
statement that has hypotheses: the witness of the obligation X is the theorem witness_X. The configuration is TC1 of
95_test_vectors.md. -/

namespace Sys2Proof.Tests

open Sys2Proof Sys2Proof.Machine

/-- The configuration TC1 (95_test_vectors.md). -/
def tc1 : Cfg where
  signature := ⟨0xA5, 0x5A, 0xC3, 0x3C⟩
  cipherKey := #v[0x01, 0x23, 0x45, 0x67, 0x89, 0xAB, 0xCD, 0xEF, 0xFE, 0xDC, 0xBA, 0x98, 0x76, 0x54, 0x32, 0x10]
  tUnit := 250
  shortUnits := 1
  longUnits := 2
  preUnits := 4
  idleLevel := .off
  rxRejectPeriod := 50
  rxEndPeriod := 2000
  minRxBytes := 16
  rxCap := none
  rawCap := none

/-- TC1 with buffers of two elements. -/
def tcSmall : Cfg :=
  { tc1 with rxCap := some 2, rawCap := some 2, rxCap_pos := by decide, rawCap_pos := by decide }

def s0 : State := State.resetFor tc1

/-- After `ENCODE 41` (40_framer_encoder.md R100, vector V1). -/
def sPkt : State :=
  { s0 with pktSig := tc1.signature, pktLen := 1, pktPay := [0x40], pktChk := 0x41, pktValid := true }

/-- Transmitting the packet of V1. -/
def sTx (idx : Nat) (pending : Bool) : State :=
  { sPkt with txState := .active, txIdx := idx, txCount := 57, txPending := pending }

/-- Replaying `1000 250 500` (41_bit_modulator.md R134). -/
def sRaw (idx : Nat) : State :=
  { s0 with rawSeq := [1000, 250, 500], txState := .active, txSrc := .raw, txIdx := idx, txCount := 3 }

/-- The samples of a row of bytes under TC1. -/
def wave (w : List Byte) : List Nat := (w.flatMap bitsMsbFirst).map (pulseDur tc1)

/-- The wire bytes of V1. -/
def v1 : List Byte := [0xA5, 0x5A, 0xC3, 0x3C, 0x01, 0x40, 0x41]

/-- A frame being received: last accepted edge at 30000 (42_receiver_fsm.md R160). -/
def sRx (samples : List Nat) : State :=
  { s0 with rxState := .receiving, rxPre := 1000, rxSamples := samples, rxLastTs := 30000 }

/-- One field of the next state. -/
def after {α : Type} (r : Host.Outcome State Fault Refusal) (f : State → α) : Option α :=
  match r with
  | .next t => some (f t)
  | .fault _ => none
  | .refused _ => none

def stop (r : Host.Outcome State Fault Refusal) : Option (Fault ⊕ Refusal) :=
  match r with
  | .next _ => none
  | .fault e => some (.inl e)
  | .refused e => some (.inr e)

/-! ### WellFormed refuses -/

theorem test_wf_demodulate_empty : wellFormed (.demodulate []) = false := by decide
theorem test_wf_emit_zero : wellFormed (.emit .on 0) = false := by decide
theorem test_wf_cmdReserved_taken : wellFormed (.cmdReserved 0x6) = false ∧ wellFormed (.cmdReserved 0x7) = true := by
  decide
theorem test_wf_evtReserved_taken : wellFormed (.evtReserved 0x5) = false ∧ wellFormed (.evtReserved 0x6) = true := by
  decide
theorem test_wf_packet_length : wellFormed (.packet ⟨tc1.signature, 2, [0x40], 0x41⟩) = false ∧
    wellFormed (.packet ⟨tc1.signature, 1, [0x40], 0x41⟩) = true := by decide

/-! ### The types and the default of 00_scope.md R8 -/

/-- 92_eei_decisions.md D8: a configuration written without IDLE_LEVEL idles at Off. -/
theorem test_idleLevel_default :
    ({ signature := tc1.signature, cipherKey := tc1.cipherKey, rxRejectPeriod := 50, minRxBytes := 16 } : Cfg).idleLevel
      = .off := rfl
theorem test_capacity_types :
    positiveOrInfinite none = true ∧ positiveOrInfinite (some 1) = true ∧ positiveOrInfinite (some 0) = false := by decide

/-! ### Decoding: the codes of 30_encoding.md R82 and R84, bit by bit -/

theorem test_decode_encode : decode (.command 0b0001#4 [0x41] []) = .encode [0x41] := by decide
theorem test_decode_modulate : decode (.command 0b0010#4 [] []) = .modulate := by decide
theorem test_decode_replay : decode (.command 0b0011#4 [] [1000]) = .replay [1000] := by decide
theorem test_decode_cancel : decode (.command 0b0100#4 [] []) = .cancel := by decide
theorem test_decode_resAck : decode (.command 0b0101#4 [] []) = .resAck := by decide
theorem test_decode_reset : decode (.command 0b0110#4 [] []) = .reset := by decide
theorem test_decode_cmdReserved : decode (.command 0b0000#4 [] []) = .cmdReserved 0 ∧
    decode (.command 0b1111#4 [] []) = .cmdReserved 0xF := by decide
theorem test_decode_edge : decode (.event 0b001#3 10000 .on) = .edge 10000 .on := by decide
theorem test_decode_idleCheck : decode (.event 0b010#3 32000 .off) = .idleCheck 32000 := by decide
theorem test_decode_sample : decode (.event 0b011#3 9000 .on) = .sample 9000 .on := by decide
theorem test_decode_emitDone : decode (.event 0b100#3 0 .off) = .emitDone := by decide
theorem test_decode_emitFail : decode (.event 0b101#3 0 .off) = .emitFail := by decide
theorem test_decode_evtReserved : decode (.event 0b000#3 0 .off) = .evtReserved 0 ∧
    decode (.event 0b111#3 0 .off) = .evtReserved 7 := by decide
theorem test_word_too_wide : present .command 16 = .error (.wordTooWide .command) ∧
    present .event 8 = .error (.wordTooWide .event) := by
  constructor <;> rfl
theorem test_fetched_word_runs :
    after (step (s0.withFetchWord 8 0b0001)) (fun t => (t.pktValid, t.pktLen, t.turns)) = some (true, 0, []) := by
  decide

/-! ### One step, from the spec's worked examples -/

/-- 40_framer_encoder.md R100. -/
theorem test_encode_v1 : after (exec (.encode [0x41]) s0) (fun t => (t.pktLen, t.pktPay, t.pktChk, readPkt t)) =
    some (1, [0x40], 0x41, some v1) := by decide
/-- Vector V4: byte 16 meets key byte 0 again. -/
theorem test_encode_wraps_key :
    after (exec (.encode [0x30, 0x31, 0x32, 0x33, 0x34, 0x35, 0x36, 0x37, 0x38, 0x39, 0x3A, 0x3B, 0x3C, 0x3D, 0x3E,
      0x3F, 0x40, 0x41]) s0) (fun t => (t.pktPay.drop 14, t.pktChk)) =
    some ([0x0C, 0x2F, 0x41, 0x62], 0x01) := by decide
/-- 41_bit_modulator.md R124. -/
theorem test_modulate : after (exec .modulate sPkt) (fun t => (t.txCount, t.txIdx, t.txLevel, t.txState)) =
    some (57, 0, .off, .active) := by decide
/-- 41_bit_modulator.md R134, R135. -/
theorem test_replay : after (exec (.replay [1000, 250, 500]) s0) (fun t => (t.txCount, t.txSrc, t.cmdStatus)) =
    some (3, .raw, .ok) := by decide
theorem test_replay_zero : after (exec (.replay [1000, 0]) s0) (fun t => (t.txState, t.cmdStatus)) =
    some (.idle, .badSequence) := by decide
/-- 41_bit_modulator.md R132. -/
theorem test_cancel : after (exec .cancel (sTx 10 true)) (fun t => (t.hist, t.txIdx, t.txState)) =
    some ([.emitCancel, .command .cancel .ok], 0, .idle) := by decide
/-- 44_system_ops.md R202, R200. -/
theorem test_resAck : after (exec .resAck { s0 with resValid := true }) statusWord = some 0 := by decide
theorem test_reset : after (exec .reset (sTx 10 true)) (fun t => (t.hist, t.txIdx, t.pktValid)) =
    some ([.emitCancel, .command .reset .ok], 0, false) := by decide
/-- 42_receiver_fsm.md R152: a gap of 30 changes nothing, 50 neither, 51 is accepted (V42). -/
theorem test_edge_boundary :
    after (exec (.edge 30050 .on) (sRx [])) (fun t => (t.rxSamples, t.rxLastTs)) = some ([], 30000) ∧
    after (exec (.edge 30051 .on) (sRx [])) (fun t => (t.rxSamples, t.rxLastTs)) = some ([51], 30051) := by decide
/-- 42_receiver_fsm.md R151: a clock that runs backwards; in Idle any time. -/
theorem test_edge_backwards : stop (exec (.edge 29999 .on) (sRx [])) = some (.inr .timeBackwards) ∧
    after (exec (.edge 0 .on) { s0 with rxLastTs := 30000 }) (·.rxState) = some .awaitingPreamble := by decide
/-- 42_receiver_fsm.md R160: elapsed 2000 changes nothing, 2001 completes the frame. -/
theorem test_idleCheck_boundary :
    after (exec (.idleCheck 32000) (sRx (wave v1))) (fun t => (t.rxState, t.resValid)) = some (.receiving, false) ∧
    after (exec (.idleCheck 32001) (sRx (wave v1))) (fun t => (t.rxState, t.resValid, t.resLen, t.resPay)) =
      some (.idle, true, 1, [0x41]) := by decide
/-- 42_receiver_fsm.md R168. -/
theorem test_sample_first : after (exec (.sample 9000 .off) s0) (fun t => (t.edValid, t.rxState)) =
    some (true, .idle) := by decide
theorem test_sample_edge :
    after (exec (.sample 10000 .on) { s0 with edValid := true }) (fun t => (t.edLevel, t.rxState)) =
    some (.on, .awaitingPreamble) := by decide
/-- 41_bit_modulator.md R129, R131. -/
theorem test_emitDone_last : after (exec .emitDone (sTx 57 true)) (fun t => (t.txState, t.txLevel, t.hist)) =
    some (.idle, .off, [.txDone]) := by decide
theorem test_emitFail : after (exec .emitFail (sTx 10 true)) (fun t => (t.txState, t.hist, statusWord t)) =
    some (.fault, [.txFault .driverFault], 0b00000110) := by decide
/-- 41_bit_modulator.md R126: the start marker, then the first bit of 0xA5. -/
theorem test_txStep_start : after (exec .txStep (sTx 0 false)) (·.hist) = some [.emit .on 1000] := by decide
theorem test_txStep_bit : after (exec .txStep { sTx 1 false with txLevel := .on }) (fun t => (t.hist, t.txIdx)) =
    some ([.emit .off 500], 2) := by decide
/-- 41_bit_modulator.md R138 and vector V23 (a tied last sample). -/
theorem test_demodulate : after (exec (.demodulate [1000, 500, 250, 500, 250, 250, 500, 250, 500]) s0) (·.fnOut) =
    some (.bytes [0xA5]) := by decide
theorem test_demodulate_jitter :
    after (exec (.demodulate [1000, 520, 270, 480, 230, 300, 374, 260, 375]) s0) (·.fnOut) =
    some (.bytes [0xA1]) := by decide
/-- Vectors V36 and V39f; V39d. -/
theorem test_decode_beyond : after (exec (.decode 1000 (wave (v1 ++ [0xFF]))) s0) (·.fnOut) =
    some (.decoded (.ok tc1.signature 1 [0x41])) := by decide
theorem test_decode_truncated_first :
    after (exec (.decode 1000 (wave [0xA4, 0x5A, 0xC3, 0x3C, 0x05, 0x40, 0x41])) s0) (·.fnOut) =
      some (.decoded (.error .truncatedFrame)) := by decide
theorem test_emit : after (exec (.emit .on 1000) s0) (·.hist) = some [.emit .on 1000] := by decide
theorem test_cmdReserved : after (exec (.cmdReserved 0xF) s0) (·.cmdStatus) = some .illegalCommand := by decide
theorem test_evtReserved : exec (.evtReserved 7) s0 = .next s0 := rfl
/-- 30_encoding.md R75: the symbols of 1, 0 after the start marker. -/
theorem test_start : after (exec .start s0) (fun t => (t.txLevel, t.hist)) = some (.on, [.emit .on 1000]) := by decide
theorem test_bit0 : after (exec .bit0 { s0 with txLevel := .on }) (·.hist) = some [.emit .off 250] := by decide
theorem test_bit1 : after (exec .bit1 s0) (·.hist) = some [.emit .on 500] := by decide
/-- 30_encoding.md R77: 56 data pulses; the first bits of 0xA5. -/
theorem test_packet : after (exec (.packet ⟨tc1.signature, 1, [0x40], 0x41⟩) { s0 with txLevel := .on })
    (fun t => (t.hist.length, t.hist.take 2, t.txLevel)) = some (56, [.emit .off 500, .emit .on 250], .on) := by decide

/-! ### Witnesses: states and operands that meet the hypotheses of the statements, clause by clause -/

theorem witness_DecodeEncodeAgree :
    wellFormed (.encode [0x41]) = true ∧ encode (.encode [0x41]) = some (.command 1 [0x41] []) := by decide
theorem witness_StepTakesTheNextTurn :
    ({ s0 with turns := [.input (.event 7 0 .off), .own] } : State).turns = .input (.event 7 0 .off) :: [.own] ∧
    (({ sTx 56 false with turns := [.own] } : State).turns = .own :: [] ∧
      txReady { sTx 56 false with turns := [.own] } = true) ∧
    (({ s0 with turns := [.own] } : State).turns = .own :: [] ∧ txReady { s0 with turns := [.own] } = false) ∧
    ((sTx 0 false).turns = [] ∧ txReady (sTx 0 false) = true) ∧ (s0.turns = [] ∧ txReady s0 = false) ∧
    ({ s0 with turns := [.resetInput] } : State).turns = .resetInput :: [] ∧
    ({ s0 with turns := [.edgeWithCheck 5 .on] } : State).turns = .edgeWithCheck 5 .on :: [] := by decide
theorem witness_CipherMeetsKeyByte : (List.replicate 17 (0x41 : Byte))[16]? = some 0x41 := by decide
theorem witness_EncodeResult :
    (sTx 0 false).txState = .active ∧ (s0.txState ≠ .active ∧ 255 < (List.replicate 256 (0 : Byte)).length) ∧
    (s0.txState ≠ .active ∧ (List.replicate 255 (0 : Byte)).length ≤ 255) :=
  ⟨by decide, ⟨by decide, by rw [List.length_replicate]; decide⟩, by decide, by rw [List.length_replicate]⟩
theorem witness_PulseSequenceElements :
    (7 ≤ 7 ∧ (wireBytes (encodePacket tc1 [0x41]))[6]? = some 0x41) ∧
    (1 ≤ 1 ∧ (wireBytes (encodePacket tc1 [0x41]))[(1 - 1) / 8]? = some 0xA5) ∧
    (1 ≤ 56 ∧ (wireBytes (encodePacket tc1 [0x41]))[(56 - 1) / 8]? = some 0x41) := by decide
theorem witness_PulseSequenceSizeAndDuration :
    (encodePacket tc1 [0x41]).pay.length = 1 ∧ 20 = (packetBits (encodePacket tc1 [0x41])).count true := by decide
theorem witness_ModulateResult :
    (sTx 0 false).txState ≠ .idle ∧ (s0.txState = .idle ∧ s0.pktValid = false) ∧
    (sPkt.txState = .idle ∧ sPkt.pktValid = true) := by decide
theorem witness_ReplayResult :
    (sRaw 0).txState ≠ .idle ∧ (s0.txState = .idle ∧ (0 : Nat) ∈ [1000, 0]) ∧
    ((State.resetFor tcSmall).cfg.rawCap = some 2 ∧ 2 < [1, 2, 3].length) ∧
    ((State.resetFor tcSmall).txState = .idle ∧ [1, 2] ≠ [] ∧ (∀ d ∈ [1, 2], 0 < d)) ∧
    (∀ cap, (State.resetFor tcSmall).cfg.rawCap = some cap → [1, 2].length ≤ cap) :=
  ⟨by decide, by decide, by decide, by decide, fun cap h => by cases h; decide⟩
theorem witness_CancelResult :
    s0.txState ≠ .active ∧ ((sTx 10 true).txState = .active ∧ (sTx 10 true).txPending = true) ∧
    ((sTx 10 false).txState = .active ∧ (sTx 10 false).txPending = false) := by decide
theorem witness_TxStepResult :
    (s0.txState ≠ .active ∧ (sTx 1 true).txPending = true ∧ (sTx 57 false).txCount ≤ (sTx 57 false).txIdx) ∧
    ((sTx 0 false).txState = .active ∧ (sTx 0 false).txPending = false ∧ (sTx 0 false).txIdx < (sTx 0 false).txCount ∧
      (sTx 0 false).turns = [] ∧ (sTx 0 false).txSrc = .packet ∧ (sTx 0 false).txIdx = 0) ∧
    ((sTx 56 false).txIdx < (sTx 56 false).txCount ∧ (sTx 56 false).txIdx = 1 + 8 * 6 + 7 ∧
      (sTx 56 false).pktValid = true ∧ (wireBytes (pktBuffer (sTx 56 false)))[6]? = some 0x41) ∧
    ((sRaw 2).txState = .active ∧ (sRaw 2).txPending = false ∧ (sRaw 2).txIdx < (sRaw 2).txCount ∧
      (sRaw 2).txSrc = .raw ∧ (sRaw 2).rawSeq[(sRaw 2).txIdx]? = some 500) := by decide
theorem witness_TxStepOutsideItsBuffer :
    (txReady { sTx 1 false with pktValid := false } = true ∧ (sTx 1 false).txSrc = .packet) ∧
    (txReady { sTx 57 false with txCount := 58 } = true ∧ (sTx 57 false).pktValid = true ∧
      6 + (sTx 57 false).pktPay.length ≤ ((sTx 57 false).txIdx - 1) / 8) ∧
    (txReady { sRaw 3 with txCount := 4 } = true ∧ (sRaw 3).txSrc = .raw ∧ (sRaw 3).rawSeq.length ≤ (sRaw 3).txIdx) := by
  decide
theorem witness_RefusedForms : (sRx []).rxState ≠ .idle ∧ 29999 < (sRx []).rxLastTs := by decide
theorem witness_EmitIsRecorded : 0 < 1 := by decide
theorem witness_EmitDoneResult :
    s0.txPending = false ∧ ((sTx 56 true).txPending = true ∧ (sTx 56 true).txIdx ≠ (sTx 56 true).txCount) ∧
    ((sTx 57 true).txPending = true ∧ (sTx 57 true).txIdx = (sTx 57 true).txCount) := by decide
theorem witness_EmitFailResult : s0.txPending = false ∧ (sTx 1 true).txPending = true := by decide
theorem witness_TiedSampleIsOne : 2 * 375 * tc1.preUnits = (tc1.shortUnits + tc1.longUnits) * 1000 := by decide
theorem witness_DemodulatedBits :
    demodulate tc1 1000 (wave [0xA5, 0x01]) = some [0xA5, 0x01] ∧ 7 ≤ 7 ∧ [(0xA5 : Byte), 0x01][1]? = some 0x01 ∧
    (wave [0xA5, 0x01])[8 * 1 + 7]? = some 500 := by decide
theorem witness_DemodulateResult : [250, 250, 250].length % 8 ≠ 0 ∧ (wave [0xA5]).length % 8 = 0 := by decide
theorem witness_DemodulateInvertsModulate : tc1.shortUnits < tc1.longUnits := by decide
theorem witness_DecodeResultInOrder :
    demodulate tc1 1000 [250] = none ∧
    (demodulate tc1 1000 (wave [0xA5, 0x5A, 0xC3, 0x3C]) = some [0xA5, 0x5A, 0xC3, 0x3C] ∧
      [(0xA5 : Byte), 0x5A, 0xC3, 0x3C].length < 5) ∧
    ([(0xA5 : Byte), 0x5A, 0xC3, 0x3C, 0x00][4]? = some 0x00 ∧
      [(0xA5 : Byte), 0x5A, 0xC3, 0x3C, 0x00].length < 6 + (0x00 : Byte).toNat) ∧
    (6 + (0x00 : Byte).toNat ≤ (List.replicate 6 (0x00 : Byte)).length ∧
      (List.replicate 6 (0x00 : Byte)).take 4 ≠ sigBytes tc1.signature) ∧
    (demodulate tc1 1000 (wave v1) = some v1 ∧ v1[4]? = some 0x01 ∧ 6 + (0x01 : Byte).toNat ≤ v1.length ∧
      v1.take 4 = sigBytes tc1.signature ∧ [0x41] = cipher tc1.cipherKey ((v1.drop 5).take 1) ∧
      v1[5 + 1]? = some (xorReduce [0x41]) ∧ v1[5 + 1]? ≠ some (xorReduce [0x43])) := by decide
theorem witness_BytesBeyondThePacketIgnored : v1[4]? = some 0x01 ∧ 6 + (0x01 : Byte).toNat ≤ v1.length := by decide
theorem witness_RoundTrip :
    tc1.shortUnits < tc1.longUnits ∧ (List.replicate 255 (0x41 : Byte)).length ≤ 255 ∧ ([] : List Byte).length ≤ 255 :=
  ⟨by decide, by rw [List.length_replicate], by decide⟩
theorem witness_FlippedPayloadBitIsCaught :
    tc1.shortUnits < tc1.longUnits ∧ [(0x41 : Byte)].length ≤ 255 ∧ 0 < [(0x41 : Byte)].length ∧ 7 < 8 := by decide
theorem witness_EdgeResult :
    ((sRx []).rxState ≠ .idle ∧ 29999 < (sRx []).rxLastTs) ∧ s0.rxState = .idle ∧
    ((sRx []).rxState ≠ .idle ∧ (sRx []).rxLastTs ≤ 30050 ∧ 30050 - (sRx []).rxLastTs ≤ (sRx []).cfg.rxRejectPeriod) ∧
    (({ s0 with rxState := .awaitingPreamble } : State).rxState = .awaitingPreamble ∧ s0.rxLastTs ≤ 51 ∧
      s0.cfg.rxRejectPeriod < 51 - s0.rxLastTs) ∧
    ((sRx []).rxState = .receiving ∧ (sRx []).rxLastTs ≤ 30051 ∧ (sRx []).cfg.rxRejectPeriod < 30051 - (sRx []).rxLastTs) ∧
    (∀ cap, ({ sRx [250] with cfg := tcSmall } : State).cfg.rxCap = some cap → (sRx [250]).rxSamples.length < cap) ∧
    (({ sRx [250, 250] with cfg := tcSmall } : State).cfg.rxCap = some 2 ∧ 2 ≤ (sRx [250, 250]).rxSamples.length) :=
  ⟨by decide, by decide, by decide, by decide, by decide, fun cap h => by cases h; decide, by decide⟩
theorem witness_NoiseBurstChangesNothing :
    (sRx []).rxState ≠ .idle ∧
    (∀ e ∈ [(30000, Level.on), (30050, Level.off)],
      (sRx []).rxLastTs ≤ e.1 ∧ e.1 - (sRx []).rxLastTs ≤ (sRx []).cfg.rxRejectPeriod) ∧
    ({ sRx [] with turns := [edgeTurn (30000, .on), edgeTurn (30050, .off), .own] } : State).turns =
      [(30000, Level.on), (30050, Level.off)].map edgeTurn ++ [.own] := by decide
theorem witness_IdleCheckWithoutHandOff :
    s0.rxState = .idle ∧
    ((sRx []).rxState ≠ .idle ∧ (sRx []).rxLastTs ≤ 32000 ∧ 32000 - (sRx []).rxLastTs ≤ (sRx []).cfg.rxEndPeriod) ∧
    ((sRx []).rxLastTs ≤ 32001 ∧ (sRx []).cfg.rxEndPeriod < 32001 - (sRx []).rxLastTs ∧
      (sRx (List.replicate 15 250)).rxSamples.length < (sRx []).cfg.minRxBytes ∧
      ({ sRx [] with rxState := .awaitingPreamble, rxPre := 0 } : State).rxPre ≤ (sRx []).cfg.rxRejectPeriod ∧
      ({ sRx [] with rxOverflow := true } : State).rxOverflow = true) := by decide
theorem witness_HandOffOfDecodedFrame :
    (sRx (wave v1)).rxState ≠ .idle ∧ (sRx (wave v1)).rxLastTs ≤ 32001 ∧
    (sRx (wave v1)).cfg.rxEndPeriod < 32001 - (sRx (wave v1)).rxLastTs ∧
    (sRx (wave v1)).cfg.minRxBytes ≤ (sRx (wave v1)).rxSamples.length ∧
    (sRx (wave v1)).cfg.rxRejectPeriod < (sRx (wave v1)).rxPre ∧ (sRx (wave v1)).rxOverflow = false ∧
    decodeFrame (sRx (wave v1)).cfg (sRx (wave v1)).rxPre (sRx (wave v1)).rxSamples = .ok tc1.signature 1 [0x41] := by
  decide
theorem witness_HandOffOfFailedFrame :
    (sRx (List.replicate 17 250)).rxState ≠ .idle ∧ (sRx []).rxLastTs ≤ 32001 ∧
    (sRx []).cfg.rxEndPeriod < 32001 - (sRx []).rxLastTs ∧
    (sRx []).cfg.minRxBytes ≤ (sRx (List.replicate 17 250)).rxSamples.length ∧
    (sRx []).cfg.rxRejectPeriod < (sRx []).rxPre ∧ (sRx []).rxOverflow = false ∧
    decodeFrame tc1 (sRx []).rxPre (sRx (List.replicate 17 250)).rxSamples = .error .malformedBitstream := by decide
theorem witness_FrameCompletesExactlyOnce :
    (sRx (wave v1)).rxState ≠ .idle ∧ (sRx (wave v1)).rxLastTs ≤ 32001 ∧
    (sRx (wave v1)).cfg.rxEndPeriod < 32001 - (sRx (wave v1)).rxLastTs ∧
    ({ sRx (wave v1) with turns := [idleTurn 32001, idleTurn 40000, .own] } : State).turns =
      idleTurn 32001 :: ([40000].map idleTurn ++ [.own]) := by decide
theorem witness_SampleResult :
    exec (.idleCheck 9000) s0 = .next s0 ∧ s0.edValid = false ∧
    (({ s0 with edValid := true } : State).edValid = true ∧ Level.off = s0.edLevel ∧ Level.on ≠ s0.edLevel) ∧
    exec (.idleCheck 9000) { s0 with edValid := true } = .next { s0 with edValid := true } :=
  ⟨rfl, by decide, by decide, rfl⟩
theorem witness_SampleCompletes :
    s0.rxState = .idle ∧ ((sRx []).rxState ≠ .idle ∧ (sRx []).rxLastTs ≤ 30000) := by decide
theorem witness_SampledDurationsWithinEndPeriod :
    WithinEndPeriod s0 ∧ exec (.sample 9000 .off) s0 = .next { s0 with edValid := true } ∧
    ({ s0 with turns := [.edgeWithCheck 9000 .on] } : State).turns = .edgeWithCheck 9000 .on :: [] ∧
    runSteps 2 { s0 with turns := [.edgeWithCheck 9000 .on] } =
      .next { s0 with rxLastTs := 9000, rxLastLevel := .on, rxState := .awaitingPreamble } ∧
    runSteps 2 { s0 with turns := idleTurn 9000 :: edgeTurn (9000, .on) :: [] } =
      .next { s0 with rxLastTs := 9000, rxLastLevel := .on, rxState := .awaitingPreamble } :=
  ⟨⟨by decide, by decide⟩, rfl, rfl, rfl, rfl⟩
theorem witness_ReservedCodesResult :
    (7 ≤ (0x7 : BitVec 4).toNat ∧ 7 ≤ (0xF : BitVec 4).toNat) ∧ 6 ≤ (0x6 : BitVec 3).toNat ∧ 6 ≤ (0x7 : BitVec 3).toNat := by
  decide
theorem witness_NoValueIsNotRead :
    sPkt.pktValid = true ∧ (({ s0 with resValid := true } : State).resValid = true ∧ s0.resStatus = .ok) ∧
    s0.pktValid = false ∧ s0.resValid = false ∧ ({ s0 with resStatus := .checksumMismatch } : State).resStatus ≠ .ok := by
  decide

/-- The packet in flight meets the invariants: a state of every kind, transmitting and receiving. -/
theorem inv_busy : Inv { sTx 2 false with rxState := .receiving, rxPre := 1000, rxSamples := [250, 500] } := by
  refine ⟨⟨?_, ?_, ?_, ?_⟩, ⟨?_, ?_, ?_, ?_, ?_, ?_, ?_, ?_, ?_⟩, ⟨?_, ?_, ?_, ?_, ?_⟩, ⟨?_, ?_, ?_, ?_⟩⟩ <;> decide
theorem witness_StepKeepsInvariants :
    Inv { sTx 2 false with rxState := .receiving, rxPre := 1000, rxSamples := [250, 500] } ∧
    step { sTx 2 false with rxState := .receiving, rxPre := 1000, rxSamples := [250, 500] } =
      .next { sTx 3 true with rxState := .receiving, rxPre := 1000, rxSamples := [250, 500], txLevel := .on
                              hist := [.emit .on 250] } :=
  ⟨inv_busy, rfl⟩
theorem witness_OnlyABackwardClockStops :
    Inv { sTx 2 false with rxState := .receiving, rxPre := 1000, rxSamples := [250, 500] } ∧
    (∀ t, nextTime { sTx 2 false with rxState := .receiving, rxPre := 1000, rxSamples := [250, 500] } = some t →
      False) :=
  ⟨inv_busy, nofun⟩
theorem witness_ConfigurationIsNeverWritten :
    exec (.evtReserved 7) s0 = .next s0 ∧ step s0 = .next s0 := ⟨rfl, rfl⟩
theorem witness_PipelinesDoNotTouchEachOther :
    (exec .emitDone s0 = .next s0 ∧ transmitOp .emitDone = true) ∧
    (exec (.idleCheck 5) s0 = .next s0 ∧ receiveOp (.idleCheck 5) = true) := ⟨⟨rfl, rfl⟩, rfl, rfl⟩
theorem witness_PipelinesCommute :
    transmitOp .emitFail = true ∧ receiveOp (.edge 5 .on) = true ∧
    exec .emitFail (sTx 1 true) = .next { sTx 1 false with txState := .fault, hist := [.txFault .driverFault] } ∧
    exec (.edge 5 .on) (sTx 1 true) =
      .next { sTx 1 true with rxLastTs := 5, rxLastLevel := .on, rxState := .awaitingPreamble } :=
  ⟨rfl, rfl, rfl, rfl⟩
theorem witness_OwnersOfTheRegisters :
    exec .emitFail { sTx 1 true with resOverrun := true } =
      .next { sTx 1 false with resOverrun := true, txState := .fault, hist := [.txFault .driverFault] } ∧
    (sTx 1 true).pktValid = true ∧
    exec .emitDone { s0 with txState := .fault } = .next { s0 with txState := .fault } ∧ s0.txPending = false :=
  ⟨rfl, rfl, rfl, rfl⟩
theorem witness_HistoryOnlyGrows : exec .bit1 s0 = .next { s0 with txLevel := .on, hist := [.emit .on 500] } ∧
    step s0 = .next s0 := ⟨rfl, rfl⟩
theorem witness_OneEmitAtATime :
    Inv { sTx 2 false with rxState := .receiving, rxPre := 1000, rxSamples := [250, 500] } ∧
    step { sTx 2 false with rxState := .receiving, rxPre := 1000, rxSamples := [250, 500] } =
      .next { sTx 3 true with rxState := .receiving, rxPre := 1000, rxSamples := [250, 500], txLevel := .on
                              hist := [] ++ [.emit .on 250] } ∧
    Event.emit .on 250 ∈ [Event.emit .on 250] :=
  ⟨inv_busy, rfl, List.mem_singleton.mpr rfl⟩
theorem witness_TransmissionEmitsTheModulatedPacket :
    sPkt.txState = .idle ∧ sPkt.txPending = false ∧ sPkt.pktValid = true ∧ sPkt.pktPay.length = sPkt.pktLen.toNat ∧
    57 = 1 + 8 * (6 + sPkt.pktLen.toNat) ∧
    ({ sPkt with turns := .input (.command 2 [] []) :: handshakes 57 } : State).turns =
      .input (.command 0x2#4 [] []) :: (handshakes 57 ++ []) :=
  ⟨rfl, rfl, rfl, rfl, rfl, rfl⟩
theorem witness_ReplayEmitsTheSequenceVerbatim :
    (State.resetFor tcSmall).txState = .idle ∧ (State.resetFor tcSmall).txPending = false ∧ [1000, 250] ≠ [] ∧
    (∀ d ∈ [1000, 250], 0 < d) ∧
    (∀ cap, (State.resetFor tcSmall).cfg.rawCap = some cap → [1000, 250].length ≤ cap) ∧
    ({ State.resetFor tcSmall with turns := .input (.command 3 [] [1000, 250]) :: handshakes 2 } : State).turns =
      .input (.command 0x3#4 [] [1000, 250]) :: (handshakes [1000, 250].length ++ []) :=
  ⟨rfl, rfl, by decide, by decide, fun cap h => by cases h; decide, rfl⟩
theorem witness_TransmittedPacketIsReceived :
    CfgOK s0.cfg ∧ [(0x41 : Byte)].length ≤ 255 ∧ s0.rxState = .idle ∧ s0.rxPre = 0 ∧ s0.rxSamples = [] ∧
    s0.rxOverflow = false ∧ 10000 + (modulate s0.cfg (encodePacket s0.cfg [0x41])).sum + s0.cfg.rxEndPeriod < 32001 ∧
    ({ s0 with turns := edgeTurns 10000 .on (modulate tc1 (encodePacket tc1 [0x41])) ++ [idleTurn 32001] } : State).turns =
      edgeTurns 10000 (toggle s0.cfg.idleLevel) (modulate s0.cfg (encodePacket s0.cfg [0x41])) ++ (idleTurn 32001 :: []) :=
  ⟨⟨by decide, by decide, by decide, by decide, by decide, by decide, by decide, by decide, by decide, by decide,
    by decide, by decide⟩, by decide, rfl, rfl, rfl, rfl, by decide, rfl⟩

end Sys2Proof.Tests
end

section
/-! PROOFS. The family 10_state.md: what the pulse reads and the STATUS word are, what each operation that completes can
do, and the owners of the registers. -/

namespace Sys2Proof.Machine

/-! ### The state after reset -/

@[simp] theorem fitsCap_zero (cap : Option Nat) : fitsCap cap 0 = true := by
  cases cap <;> simp [fitsCap]

theorem bufferInv_resetFor (c : Cfg) : BufferInv (State.resetFor c) where
  pkt_sig := nofun
  pkt_len := nofun
  raw_positive := nofun
  raw_fits := fitsCap_zero c.rawCap

/-- In `Idle` with nothing outstanding only the quiet level is left to show (10_state.md R26, R29). -/
theorem transmitInv_resetFor (c : Cfg) : TransmitInv (State.resetFor c) where
  pending_active := nofun
  idx_le := nofun
  count_pos := nofun
  ready_lt := nofun
  pending_idx := nofun
  packet_source := nofun
  raw_source := nofun
  level_quiet _ := rfl
  level_active := nofun

theorem receiveInv_resetFor (c : Cfg) : ReceiveInv (State.resetFor c) where
  idle_fresh _ := ⟨rfl, rfl, rfl⟩
  awaiting_fresh := nofun
  receiving_pre := nofun
  samples_accepted := nofun
  samples_fit := fitsCap_zero c.rxCap

theorem resultInv_resetFor (c : Cfg) : ResultInv (State.resetFor c) where
  res_status := rfl
  res_decoded := nofun
  res_bound := Nat.zero_le 255
  cmd_status := rfl

theorem inv_resetFor (c : Cfg) : Inv (State.resetFor c) :=
  ⟨bufferInv_resetFor c, transmitInv_resetFor c, receiveInv_resetFor c, resultInv_resetFor c⟩

/-- Settles O47: the invariants hold after reset under every configuration, so under the one that was built. -/
theorem resetMeetsInvariants : Obligations.ResetMeetsInvariants := inv_resetFor Config.built

/-! ### The STATUS word -/

theorem txBusy_iff {s : State} : txBusy s = true ↔ s.txState = .active := by simp [txBusy]

theorem txFaulted_iff {s : State} : txFaulted s = true ↔ s.txState = .fault := by simp [txFaulted]

/-- A flag put below a word is bit 0, and the word's own bits move up by one. -/
theorem getLsbD_append_ofBool {w : Nat} (x : BitVec w) (b : Bool) (k : Nat) :
    (x ++ BitVec.ofBool b).getLsbD k = if k = 0 then b else x.getLsbD (k - 1) :=
  BitVec.getLsbD_concat x b k

/-- 10_state.md R40, bits 5 to 0. -/
theorem statusWord_getLsbD (s : State) (k : Nat) (hk : k < 6) :
    (statusWord s).getLsbD k =
      [txBusy s, s.pktValid, txFaulted s, s.resValid, s.resOverrun, s.rxOverflow][k] := by
  unfold statusWord
  match k, hk with
  | 0, _ | 1, _ | 2, _ | 3, _ | 4, _ | 5, _ =>
    simp only [getLsbD_append_ofBool]
    rfl

/-- 10_state.md R40, bits 7 and 6. -/
theorem statusWord_rxState (s : State) : (statusWord s).extractLsb' 6 2 = rxStateCode s.rxState := by
  ext k hk
  rw [BitVec.getElem_extractLsb', statusWord]
  match k, hk with
  | 0, _ | 1, _ =>
    simp only [getLsbD_append_ofBool]
    rfl

/-- Settles O44: six flags by their places, and the code of `rx_state` above them. -/
theorem statusWordBits : Obligations.StatusWordBits := by
  intro s
  refine ⟨?_, statusWord_getLsbD s 1 (by decide), ?_, statusWord_getLsbD s 3 (by decide),
    statusWord_getLsbD s 4 (by decide), statusWord_getLsbD s 5 (by decide), ?_⟩
  · rw [statusWord_getLsbD s 0 (by decide)]
    exact txBusy_iff
  · rw [statusWord_getLsbD s 2 (by decide)]
    exact txFaulted_iff
  · rw [statusWord_rxState]
    cases s.rxState <;> rfl

/-! ### Where a TX_STEP cannot read its pulse -/

theorem memRead_eq_none {α : Type} {buf : List α} {i n : Nat} :
    memRead buf i n = none ↔ buf.length < i + n := by
  simp [memRead]

theorem packetPulse_noValue {s : State} (h0 : s.txIdx ≠ 0) (hv : s.pktValid = false) :
    packetPulse s = .fault .noValue := by
  simp [packetPulse, readPkt, h0, hv]

theorem packetPulse_outOfBounds {s : State} (h0 : s.txIdx ≠ 0) (hv : s.pktValid = true)
    (hi : 6 + s.pktPay.length ≤ (s.txIdx - 1) / 8) : packetPulse s = .refused .outOfBounds := by
  have hm : memRead (wireBytes (pktBuffer s)) ((s.txIdx - 1) / 8) 1 = none :=
    memRead_eq_none.2 (by rw [wireBytes_length]; exact Nat.lt_succ_of_le hi)
  simp [packetPulse, readPkt, h0, hv, hm]

theorem rawPulse_outOfBounds {s : State} (hi : s.rawSeq.length ≤ s.txIdx) : rawPulse s = .refused .outOfBounds := by
  have hm : memRead s.rawSeq s.txIdx 1 = none := memRead_eq_none.2 (Nat.lt_succ_of_le hi)
  simp [rawPulse, hm]

theorem execTxStep_fault {s : State} {e : Fault} (hr : txReady s = true) (hp : nextPulse s = .fault e) :
    execTxStep s = .fault e := by
  simp [execTxStep, hr, hp]

theorem execTxStep_refused {s : State} {e : Refusal} (hr : txReady s = true) (hp : nextPulse s = .refused e) :
    execTxStep s = .refused e := by
  simp [execTxStep, hr, hp]

/-- Settles O15: an enabled TX_STEP stops as the read of its pulse does. -/
theorem txStepOutsideItsBuffer : Obligations.TxStepOutsideItsBuffer := by
  intro s hact hpend hlt
  have hr : txReady s = true := txReady_iff.2 ⟨hact, hpend, hlt⟩
  refine ⟨fun hsrc h0 hv => ?_, fun hsrc h0 hv hi => ?_, fun hsrc hi => ?_⟩
  · exact execTxStep_fault hr ((nextPulse_packet hsrc).trans (packetPulse_noValue h0 hv))
  · exact execTxStep_refused hr ((nextPulse_packet hsrc).trans (packetPulse_outOfBounds h0 hv hi))
  · exact execTxStep_refused hr ((nextPulse_raw hsrc).trans (rawPulse_outOfBounds hi))

/-! ### What each operation that completes can do (TX_STEP and the receive events: Laws/Ops.lean) -/

/-- ENCODE (40_framer_encoder.md R100): a caller error, or the packet is stored. -/
theorem execEncode_next {s t : State} {p : List Byte} (h : execEncode p s = .next t) :
    (∃ st, t = callerError (.encode p) st s) ∨
    (s.txState ≠ .active ∧ payloadFits p = true ∧
      t = answer (.encode p) .ok
        { s with pktSig := (encodePacket s.cfg p).sig, pktLen := (encodePacket s.cfg p).len
                 pktPay := (encodePacket s.cfg p).pay, pktChk := (encodePacket s.cfg p).chk, pktValid := true }) := by
  unfold execEncode at h
  split at h
  · cases h
    exact .inl ⟨_, rfl⟩
  · rename_i hact
    split at h
    · rename_i hfit
      cases h
      exact .inr ⟨hact, hfit, rfl⟩
    · cases h
      exact .inl ⟨_, rfl⟩

/-- MODULATE (41_bit_modulator.md R124, R125): a caller error, or the transmission of the packet starts. -/
theorem execModulate_next {s t : State} (h : execModulate s = .next t) :
    (∃ st, t = callerError .modulate st s) ∨
    (s.txState = .idle ∧ s.pktValid = true ∧
      t = answer .modulate .ok (startTx .packet (1 + 8 * (6 + s.pktLen.toNat)) s)) := by
  unfold execModulate at h
  split at h
  · cases h
    exact .inl ⟨_, rfl⟩
  · rename_i hidle
    split at h
    · rename_i hv
      cases h
      exact .inr ⟨not_not.1 hidle, hv, rfl⟩
    · cases h
      exact .inl ⟨_, rfl⟩

/-- REPLAY (41_bit_modulator.md R134, R135): a caller error, or the sequence is stored and its transmission starts. -/
theorem execReplay_next {s t : State} {q : List Nat} (h : execReplay q s = .next t) :
    (∃ st, t = callerError (.replay q) st s) ∨
    (s.txState = .idle ∧ sequenceLegal s.cfg q = true ∧
      t = answer (.replay q) .ok (startTx .raw q.length { s with rawSeq := q })) := by
  unfold execReplay at h
  split at h
  · cases h
    exact .inl ⟨_, rfl⟩
  · rename_i hidle
    split at h
    · rename_i hq
      cases h
      exact .inr ⟨not_not.1 hidle, hq, rfl⟩
    · cases h
      exact .inl ⟨_, rfl⟩

/-- CANCEL (41_bit_modulator.md R132): a transmission is abandoned, or there is none. -/
theorem execCancel_next {s t : State} (h : execCancel s = .next t) :
    (s.txState = .active ∧ t = answer .cancel .ok (abandonTx s)) ∨
    (s.txState ≠ .active ∧ t = answer .cancel .ok s) := by
  unfold execCancel at h
  split at h <;> rename_i hact <;> cases h
  · exact .inl ⟨hact, rfl⟩
  · exact .inr ⟨hact, rfl⟩

/-- EMIT (41_bit_modulator.md R127): of a positive duration, recorded. -/
theorem execEmit_next {s t : State} {lvl : Level} {d : Nat} (h : execEmit lvl d s = .next t) :
    0 < d ∧ t = emitOut lvl d s := by
  unfold execEmit at h
  split at h <;> rename_i hd <;> cases h
  exact ⟨hd, rfl⟩

/-- EMIT_DONE (41_bit_modulator.md R129): ignored, the last pulse, or a pulse before the last. -/
theorem execEmitDone_next {s t : State} (h : execEmitDone s = .next t) :
    (s.txPending = false ∧ t = s) ∨
    (s.txPending = true ∧ s.txIdx = s.txCount ∧ t = finishTx { s with txPending := false }) ∨
    (s.txPending = true ∧ s.txIdx ≠ s.txCount ∧ t = { s with txPending := false }) := by
  unfold execEmitDone at h
  split at h
  · rename_i hp
    split at h <;> rename_i hlast <;> cases h
    · exact .inr (.inl ⟨hp, hlast, rfl⟩)
    · exact .inr (.inr ⟨hp, hlast, rfl⟩)
  · rename_i hp
    cases h
    exact .inl ⟨Bool.eq_false_of_not_eq_true hp, rfl⟩

/-- EMIT_FAIL (41_bit_modulator.md R131): ignored, or the driver fault is taken. -/
theorem execEmitFail_next {s t : State} (h : execEmitFail s = .next t) :
    (s.txPending = false ∧ t = s) ∨ (s.txPending = true ∧ t = driverFault s) := by
  unfold execEmitFail at h
  split at h <;> rename_i hp <;> cases h
  · exact .inr ⟨hp, rfl⟩
  · exact .inl ⟨Bool.eq_false_of_not_eq_true hp, rfl⟩

/-- DEMODULATE (41_bit_modulator.md R138, R139): it returns a value and writes no register. -/
theorem execDemodulate_next {s t : State} {seq : List Nat} (h : execDemodulate seq s = .next t) :
    ∃ v, t = { s with fnOut := v } := by
  unfold execDemodulate at h
  split at h
  · cases h
  · split at h <;> cases h <;> exact ⟨_, rfl⟩

/-! ### The owners of the registers (10_state.md R24 to R26, R37, R44) -/

/-- What nothing but RESET takes back: `pkt_valid`, `res_overrun`, and a transmitter fault with no Emit outstanding. -/
structure KeepsSticky (s t : State) : Prop where
  pkt_valid : s.pktValid = true → t.pktValid = true
  res_overrun : s.resOverrun = true → t.resOverrun = true
  tx_fault : s.txState = .fault → s.txPending = false → t.txState = .fault ∧ t.txPending = false

/-- What an operation does that owns neither the packet buffer nor the replay buffer. -/
structure KeepsOwned (s t : State) : Prop where
  packet : pktBuffer t = pktBuffer s
  valid : t.pktValid = s.pktValid
  replay : t.rawSeq = s.rawSeq
  sticky : KeepsSticky s t

theorem pktBuffer_eq_iff {s t : State} :
    pktBuffer t = pktBuffer s ↔
      t.pktSig = s.pktSig ∧ t.pktLen = s.pktLen ∧ t.pktPay = s.pktPay ∧ t.pktChk = s.pktChk := by
  simp [pktBuffer]

theorem KeepsSticky.trans {s t u : State} (h : KeepsSticky s t) (h' : KeepsSticky t u) : KeepsSticky s u where
  pkt_valid hv := h'.pkt_valid (h.pkt_valid hv)
  res_overrun ho := h'.res_overrun (h.res_overrun ho)
  tx_fault hf hp := h'.tx_fault (h.tx_fault hf hp).1 (h.tx_fault hf hp).2

theorem KeepsOwned.trans {s t u : State} (h : KeepsOwned s t) (h' : KeepsOwned t u) : KeepsOwned s u where
  packet := h'.packet.trans h.packet
  valid := h'.valid.trans h.valid
  replay := h'.replay.trans h.replay
  sticky := h.sticky.trans h'.sticky

/-- The transmit side is left as it is, and `res_overrun` is not cleared. -/
theorem KeepsOwned.of_sameTransmit {s t : State} (h : SameTransmit s t)
    (ho : s.resOverrun = true → t.resOverrun = true) : KeepsOwned s t where
  packet := pktBuffer_eq_iff.2 ⟨h.pktSig.symm, h.pktLen.symm, h.pktPay.symm, h.pktChk.symm⟩
  valid := h.pktValid.symm
  replay := h.rawSeq.symm
  sticky :=
    { pkt_valid := fun hv => h.pktValid ▸ hv
      res_overrun := ho
      tx_fault := fun hf hp => ⟨h.txState ▸ hf, h.txPending ▸ hp⟩ }

/-- The sequencer may move when it is not at rest in `TxFault`. -/
theorem KeepsOwned.of_not_faulted {s t : State} (hnf : s.txState = .fault → s.txPending = true)
    (hpkt : pktBuffer t = pktBuffer s) (hv : t.pktValid = s.pktValid) (hraw : t.rawSeq = s.rawSeq)
    (ho : t.resOverrun = s.resOverrun) : KeepsOwned s t where
  packet := hpkt
  valid := hv
  replay := hraw
  sticky :=
    { pkt_valid := fun h => hv.trans h
      res_overrun := fun h => ho.trans h
      tx_fault := fun hf hp => absurd (hnf hf) (by simp [hp]) }

theorem SameTransmit.refl (s : State) : SameTransmit s s := by constructor <;> rfl

theorem KeepsOwned.refl (s : State) : KeepsOwned s s := .of_sameTransmit (.refl s) id

theorem keepsSticky_storePacket (s : State) (p : Packet) (c : Instr) (st : Status) :
    KeepsSticky s (answer c st { s with pktSig := p.sig, pktLen := p.len, pktPay := p.pay, pktChk := p.chk
                                        pktValid := true }) where
  pkt_valid _ := rfl
  res_overrun := id
  tx_fault hf hp := ⟨hf, hp⟩

/-- An answer, a caller error among them, writes `cmd_status` alone of the registers. -/
theorem keepsOwned_answer (c : Instr) (st : Status) (s : State) : KeepsOwned s (answer c st s) :=
  .of_sameTransmit (by constructor <;> rfl) id

theorem keepsOwned_emitOut (lvl : Level) (d : Nat) (s : State) : KeepsOwned s (emitOut lvl d s) :=
  .of_sameTransmit (by constructor <;> rfl) id

theorem keepsOwned_pulseAt (lvl : Level) (d : Nat) (s : State) : KeepsOwned s (pulseAt lvl d s) where
  packet := rfl
  valid := rfl
  replay := rfl
  sticky := ⟨id, id, fun hf hp => ⟨hf, hp⟩⟩

theorem keepsOwned_bitPulses (bits : List Bool) (s : State) : KeepsOwned s (bitPulses bits s) := by
  induction bits generalizing s with
  | nil => exact .refl s
  | cons b bits ih => exact (keepsOwned_pulseAt _ _ s).trans (ih _)

theorem execModulate_keepsOwned {s t : State} (h : execModulate s = .next t) : KeepsOwned s t := by
  obtain ⟨st, rfl⟩ | ⟨hidle, _, rfl⟩ := execModulate_next h
  · exact keepsOwned_answer _ st s
  · exact .of_not_faulted (by simp [hidle]) rfl rfl rfl rfl

theorem execCancel_keepsOwned {s t : State} (h : execCancel s = .next t) : KeepsOwned s t := by
  obtain ⟨hact, rfl⟩ | ⟨_, rfl⟩ := execCancel_next h
  · exact .of_not_faulted (by simp [hact]) rfl rfl rfl rfl
  · exact keepsOwned_answer _ _ s

theorem execTxStep_keepsOwned {s t : State} (h : execTxStep s = .next t) : KeepsOwned s t := by
  obtain ⟨hready, d, _, rfl⟩ := execTxStep_next.1 h
  have hact : s.txState = .active := (txReady_iff.1 hready).1
  exact .of_not_faulted (by simp [hact]) rfl rfl rfl rfl

theorem execEmitDone_keepsOwned {s t : State} (h : execEmitDone s = .next t) : KeepsOwned s t := by
  obtain ⟨_, rfl⟩ | ⟨hp, _, rfl⟩ | ⟨hp, _, rfl⟩ := execEmitDone_next h
  · exact .refl t
  · exact .of_not_faulted (fun _ => hp) rfl rfl rfl rfl
  · exact .of_not_faulted (fun _ => hp) rfl rfl rfl rfl

theorem execEmitFail_keepsOwned {s t : State} (h : execEmitFail s = .next t) : KeepsOwned s t := by
  obtain ⟨_, rfl⟩ | ⟨hp, rfl⟩ := execEmitFail_next h
  · exact .refl t
  · exact .of_not_faulted (fun _ => hp) rfl rfl rfl rfl

@[simp] theorem handOff_resOverrun (s : State) : (handOff s).resOverrun = (s.resOverrun || s.resValid) := by
  rcases handOff_cases s with ⟨_, _, _, _, h⟩ | ⟨_, _, _, _, _, _, h⟩ <;> rw [h] <;> rfl

theorem edgeOp_keepsOwned {s t : State} {ts : Nat} {lvl : Level} (h : edgeOp ts lvl s = .next t) :
    KeepsOwned s t := by
  refine .of_sameTransmit (edgeOp_sameTransmit h) fun ho => ?_
  obtain ⟨_, rfl⟩ | ⟨_, _, _, rfl⟩ | ⟨_, _, _, rfl⟩ | ⟨_, _, _, _, rfl⟩ | ⟨_, _, _, _, rfl⟩ := edgeOp_next h <;>
    exact ho

theorem idleCheckOp_keepsOwned {s t : State} {now : Nat} (h : idleCheckOp now s = .next t) : KeepsOwned s t := by
  refine .of_sameTransmit (idleCheckOp_sameTransmit h) fun ho => ?_
  obtain ⟨_, ⟨_, rfl⟩ | ⟨_, _, rfl⟩ | ⟨_, _, rfl⟩⟩ := idleCheckOp_next h
  · exact ho
  · exact ho
  · simp [ho]

theorem edgeDetect_keepsOwned {s t : State} {now : Nat} {lvl : Level} (h : edgeDetect now lvl s = .next t) :
    KeepsOwned s t := by
  obtain ⟨_, rfl⟩ | ⟨_, _, rfl⟩ | ⟨_, _, h⟩ := edgeDetect_next h
  · exact .of_sameTransmit (by constructor <;> rfl) id
  · exact .refl t
  · have hlevel : KeepsOwned s { s with edLevel := lvl } := .of_sameTransmit (by constructor <;> rfl) id
    exact hlevel.trans (edgeOp_keepsOwned h)

theorem execSample_keepsOwned {s t : State} {now : Nat} {lvl : Level} (h : execSample now lvl s = .next t) :
    KeepsOwned s t := by
  obtain ⟨u, hcheck, hdetect⟩ := andThen_next.1 h
  exact (idleCheckOp_keepsOwned hcheck).trans (edgeDetect_keepsOwned hdetect)

/-- Nothing but ENCODE, REPLAY and RESET is an owner of these registers. -/
theorem exec_keepsOwned {i : Instr} {s t : State} (h : exec i s = .next t) (hreset : i ≠ .reset)
    (hencode : ∀ p, i ≠ .encode p) (hreplay : ∀ q, i ≠ .replay q) : KeepsOwned s t := by
  cases i with
  | encode p => exact absurd rfl (hencode p)
  | replay q => exact absurd rfl (hreplay q)
  | reset => exact absurd rfl hreset
  | modulate => exact execModulate_keepsOwned h
  | cancel => exact execCancel_keepsOwned h
  | resAck =>
    cases h
    exact .of_sameTransmit (by constructor <;> rfl) id
  | edge ts lvl => exact edgeOp_keepsOwned h
  | idleCheck now => exact idleCheckOp_keepsOwned h
  | sample now lvl => exact execSample_keepsOwned h
  | emitDone => exact execEmitDone_keepsOwned h
  | emitFail => exact execEmitFail_keepsOwned h
  | txStep => exact execTxStep_keepsOwned h
  | demodulate seq =>
    obtain ⟨v, rfl⟩ := execDemodulate_next h
    exact .of_sameTransmit (by constructor <;> rfl) id
  | decode pre samples =>
    cases h
    exact .of_sameTransmit (by constructor <;> rfl) id
  | emit lvl d =>
    obtain ⟨_, rfl⟩ := execEmit_next h
    exact keepsOwned_emitOut lvl d s
  | cmdReserved op =>
    cases h
    exact keepsOwned_answer _ _ s
  | evtReserved ev =>
    cases h
    exact .refl s
  | packet pkt =>
    cases h
    exact keepsOwned_bitPulses _ s
  | start | bit0 | bit1 =>
    cases h
    exact keepsOwned_pulseAt _ _ s

/-- ENCODE leaves the replay buffer alone, and a stored packet is valid. -/
theorem execEncode_owns {s t : State} {p : List Byte} (h : execEncode p s = .next t) :
    t.rawSeq = s.rawSeq ∧ KeepsSticky s t := by
  obtain ⟨st, rfl⟩ | ⟨_, _, rfl⟩ := execEncode_next h
  · exact ⟨rfl, (keepsOwned_answer _ st s).sticky⟩
  · exact ⟨rfl, keepsSticky_storePacket s (encodePacket s.cfg p) _ _⟩

/-- REPLAY leaves the packet buffer alone, and it starts from `TxIdle` only. -/
theorem execReplay_owns {s t : State} {q : List Nat} (h : execReplay q s = .next t) :
    pktBuffer t = pktBuffer s ∧ t.pktValid = s.pktValid ∧ KeepsSticky s t := by
  obtain ⟨st, rfl⟩ | ⟨hidle, _, rfl⟩ := execReplay_next h
  · exact ⟨rfl, rfl, (keepsOwned_answer _ st s).sticky⟩
  · exact ⟨rfl, rfl, id, id, fun hf => absurd (hidle.symm.trans hf) nofun⟩

theorem exec_keepsSticky {i : Instr} {s t : State} (h : exec i s = .next t) (hreset : i ≠ .reset) :
    KeepsSticky s t := by
  cases i with
  | encode p => exact (execEncode_owns h).2
  | replay q => exact (execReplay_owns h).2.2
  | _ => exact (exec_keepsOwned h hreset nofun nofun).sticky

theorem exec_keepsPacketBuffer {i : Instr} {s t : State} (h : exec i s = .next t) (hreset : i ≠ .reset)
    (hencode : ∀ p, i ≠ .encode p) : pktBuffer t = pktBuffer s ∧ t.pktValid = s.pktValid := by
  by_cases hreplay : ∃ q, i = .replay q
  · obtain ⟨q, rfl⟩ := hreplay
    obtain ⟨hpkt, hvalid, _⟩ := execReplay_owns h
    exact ⟨hpkt, hvalid⟩
  · have hk := exec_keepsOwned h hreset hencode (not_exists.1 hreplay)
    exact ⟨hk.packet, hk.valid⟩

theorem exec_keepsReplayBuffer {i : Instr} {s t : State} (h : exec i s = .next t) (hreset : i ≠ .reset)
    (hreplay : ∀ q, i ≠ .replay q) : t.rawSeq = s.rawSeq := by
  by_cases hencode : ∃ p, i = .encode p
  · obtain ⟨p, rfl⟩ := hencode
    exact (execEncode_owns h).1
  · exact (exec_keepsOwned h hreset (not_exists.1 hencode) hreplay).replay

/-- Settles O52: by operation, each owner apart from the operations that own none of these registers. -/
theorem ownersOfTheRegisters : Obligations.OwnersOfTheRegisters := by
  intro i s t h hreset
  have hsticky := exec_keepsSticky h hreset
  refine ⟨fun hencode => ?_, exec_keepsReplayBuffer h hreset, hsticky.pkt_valid, hsticky.res_overrun,
    fun hf hp => (hsticky.tx_fault hf hp).1⟩
  obtain ⟨hpkt, hvalid⟩ := exec_keepsPacketBuffer h hreset hencode
  obtain ⟨hsig, hlen, hpay, hchk⟩ := pktBuffer_eq_iff.1 hpkt
  exact ⟨hsig, hlen, hpay, hchk, hvalid⟩

end Sys2Proof.Machine
end

section
/-! PROOFS. The family 20_memory.md: what a step takes, and the independence of the two pipelines (R64). A side of the
state is the state with everything but that side at its reset value. An operation leaves the other pipeline's side as it
was, and what it does to its own side depends on that side alone; that two operations commute follows from these two. -/

namespace Sys2Proof.Machine

/-! ### Steps (20_memory.md R60, R62) -/

theorem ownStep_of_ready {s : State} (h : txReady s = true) : ownStep s = exec .txStep s := if_pos h

theorem ownStep_of_not_ready {s : State} (h : txReady s = false) : ownStep s = .next s := by
  simp [ownStep, h]

theorem step_nil {s : State} (h : s.turns = []) : step s = ownStep s := by
  simp [step, h]

theorem step_own {s : State} {rest : List Turn} (h : s.turns = .own :: rest) :
    step s = ownStep { s with turns := rest } := by
  simp [step, h, takeTurn]

theorem step_resetInput {s : State} {rest : List Turn} (h : s.turns = .resetInput :: rest) :
    step s = .next (resetBlock { s with turns := rest }) := by
  simp [step, h, takeTurn]

theorem step_edgeWithCheck {s : State} {rest : List Turn} {ts : Nat} {lvl : Level}
    (h : s.turns = .edgeWithCheck ts lvl :: rest) :
    step s = exec (.idleCheck ts) { s with turns := edgeTurn (ts, lvl) :: rest } := by
  simp [step, h, takeTurn, edgeTurn]

/-- Settles O3: one clause per kind of turn; whether TX_STEP is enabled does not depend on the turns. -/
theorem stepTakesTheNextTurn : Obligations.StepTakesTheNextTurn := by
  intro s rest
  exact ⟨fun x h => step_input h,
    fun h hr => (step_own h).trans (ownStep_of_ready hr),
    fun h hr => (step_own h).trans (ownStep_of_not_ready hr),
    fun h hr => (step_nil h).trans (ownStep_of_ready hr),
    fun h hr => (step_nil h).trans (ownStep_of_not_ready hr),
    step_resetInput,
    fun ts lvl h => step_edgeWithCheck h⟩

/-! ### The two sides of the state (20_memory.md R64) -/

/-- The receive side: the registers `rx_*`, `ed_*`, `res_*`, with the count of free values they draw on (log 6). -/
def receiveSide (s : State) : State :=
  { State.resetFor s.cfg with
    rxState := s.rxState, rxPre := s.rxPre, rxSamples := s.rxSamples, rxLastLevel := s.rxLastLevel
    rxLastTs := s.rxLastTs, rxOverflow := s.rxOverflow, edValid := s.edValid, edLevel := s.edLevel
    resValid := s.resValid, resOverrun := s.resOverrun, resStatus := s.resStatus, resSig := s.resSig
    resLen := s.resLen, resPay := s.resPay, resPre := s.resPre, resSamples := s.resSamples
    resLastLevel := s.resLastLevel, draws := s.draws }

/-- The transmit side: the registers `pkt_*`, `raw_*`, `tx_*`, and `cmd_status` where it is asked for: RES_ACK writes it
too. -/
def transmitSide (withStatus : Bool) (s : State) : State :=
  { State.resetFor s.cfg with
    pktSig := s.pktSig, pktLen := s.pktLen, pktPay := s.pktPay, pktChk := s.pktChk, pktValid := s.pktValid
    rawSeq := s.rawSeq, txState := s.txState, txIdx := s.txIdx, txCount := s.txCount, txSrc := s.txSrc
    txLevel := s.txLevel, txPending := s.txPending
    cmdStatus := if withStatus then s.cmdStatus else .ok }

theorem receiveSide_eq_iff {s t : State} :
    receiveSide s = receiveSide t ↔ SameReceive s t ∧ s.cfg = t.cfg ∧ s.draws = t.draws := by
  constructor
  · intro h
    simp only [receiveSide, State.mk.injEq] at h
    refine ⟨?_, h.1, ?_⟩
    · constructor <;> simp only [h]
    · simp only [h]
  · rintro ⟨⟨⟩, hcfg, hdraws⟩
    simp only [receiveSide, *]

theorem transmitSide_eq_iff {k : Bool} {s t : State} :
    transmitSide k s = transmitSide k t ↔
      SameTransmit s t ∧ s.cfg = t.cfg ∧ (k = true → s.cmdStatus = t.cmdStatus) := by
  constructor
  · intro h
    simp only [transmitSide, State.mk.injEq] at h
    refine ⟨?_, h.1, ?_⟩
    · constructor <;> simp only [h]
    · rintro rfl
      simp only [if_true] at h
      simp only [h]
  · rintro ⟨⟨⟩, hcfg, hstatus⟩
    cases k with
    | false => simp only [transmitSide, *]; rfl
    | true =>
      have hst := hstatus rfl
      simp only [transmitSide, *]

/-! ### An operation leaves the other side as it was -/

/-- No transmit operation writes the receive side. -/
theorem exec_transmitOp_receiveSide {i : Instr} {s t : State} (h : exec i s = .next t) (hi : transmitOp i = true) :
    receiveSide t = receiveSide s := by
  cases i with
  | encode p => obtain ⟨_, rfl⟩ | ⟨_, _, rfl⟩ := execEncode_next h <;> rfl
  | modulate => obtain ⟨_, rfl⟩ | ⟨_, _, rfl⟩ := execModulate_next h <;> rfl
  | replay q => obtain ⟨_, rfl⟩ | ⟨_, _, rfl⟩ := execReplay_next h <;> rfl
  | cancel => obtain ⟨_, rfl⟩ | ⟨_, rfl⟩ := execCancel_next h <;> rfl
  | txStep => obtain ⟨_, _, _, rfl⟩ := execTxStep_next.1 h; rfl
  | emitDone => obtain ⟨_, rfl⟩ | ⟨_, _, rfl⟩ | ⟨_, _, rfl⟩ := execEmitDone_next h <;> rfl
  | emitFail => obtain ⟨_, rfl⟩ | ⟨_, rfl⟩ := execEmitFail_next h <;> rfl
  | _ => cases hi

theorem edgeOp_transmitSide {k : Bool} {s t : State} {ts : Nat} {lvl : Level} (h : edgeOp ts lvl s = .next t) :
    transmitSide k t = transmitSide k s := by
  obtain ⟨_, rfl⟩ | ⟨_, _, _, rfl⟩ | ⟨_, _, _, rfl⟩ | ⟨_, _, _, _, rfl⟩ | ⟨_, _, _, _, rfl⟩ := edgeOp_next h <;> rfl

theorem idleCheckOp_transmitSide {k : Bool} {s t : State} {now : Nat} (h : idleCheckOp now s = .next t) :
    transmitSide k t = transmitSide k s := by
  obtain ⟨hcfg, _, _, hstatus, _, _⟩ := idleCheckOp_frame h
  exact (transmitSide_eq_iff.2 ⟨idleCheckOp_sameTransmit h, hcfg.symm, fun _ => hstatus.symm⟩).symm

theorem edgeDetect_transmitSide {k : Bool} {s t : State} {now : Nat} {lvl : Level}
    (h : edgeDetect now lvl s = .next t) : transmitSide k t = transmitSide k s := by
  obtain ⟨_, rfl⟩ | ⟨_, _, rfl⟩ | ⟨_, _, h⟩ := edgeDetect_next h
  · rfl
  · rfl
  · exact edgeOp_transmitSide (s := { s with edLevel := lvl }) h

/-- No receive operation writes the transmit side; RES_ACK alone writes `cmd_status`. -/
theorem exec_receiveOp_transmitSide {j : Instr} {k : Bool} {s t : State} (h : exec j s = .next t)
    (hj : receiveOp j = true) (hk : k = true → j ≠ .resAck) : transmitSide k t = transmitSide k s := by
  cases j with
  | edge ts lvl => exact edgeOp_transmitSide h
  | idleCheck now => exact idleCheckOp_transmitSide h
  | sample now lvl =>
    obtain ⟨u, hcheck, hdetect⟩ := andThen_next.1 h
    exact (edgeDetect_transmitSide hdetect).trans (idleCheckOp_transmitSide hcheck)
  | resAck =>
    cases k with
    | false => cases h; rfl
    | true => exact absurd rfl (hk rfl)
  | _ => cases hj

/-- Settles O50: each pipeline's operations leave the other's side as it was. -/
theorem pipelinesDoNotTouchEachOther : Obligations.PipelinesDoNotTouchEachOther := by
  intro i s t h
  refine ⟨fun hi => ?_, fun hi => ⟨?_, fun hne => ?_⟩⟩
  · obtain ⟨hsame, _, hdraws⟩ := receiveSide_eq_iff.1 (exec_transmitOp_receiveSide h hi).symm
    exact ⟨hsame, hdraws.symm⟩
  · exact (transmitSide_eq_iff.1 (exec_receiveOp_transmitSide (k := false) h hi nofun).symm).1
  · obtain ⟨_, _, hstatus⟩ := transmitSide_eq_iff.1 (exec_receiveOp_transmitSide h hi fun _ => hne)
    exact hstatus rfl

/-! ### What an operation does to its own side depends on that side alone -/

/-- Two outcomes agree on the side `p`: the same stop, or next states with the same side. -/
def AgreeOn (p : State → State) (r r' : Result) : Prop :=
  andThen r (fun t => .next (p t)) = andThen r' (fun t => .next (p t))

/-- What `f` does to the side `p`, and whether it completes, depend on that side of the state alone. -/
def FactorsThrough (p : State → State) (f : State → Result) : Prop :=
  ∀ s, AgreeOn p (f s) (f (p s))

section
variable {p : State → State}

theorem AgreeOn.refl (r : Result) : AgreeOn p r r := rfl

theorem AgreeOn.next {t u : State} (h : p t = p u) : AgreeOn p (.next t) (.next u) :=
  congrArg Host.Outcome.next h

theorem AgreeOn.ite {c c' : Prop} [Decidable c] [Decidable c'] {r r' q q' : Result} (hc : c ↔ c')
    (ht : AgreeOn p r r') (he : AgreeOn p q q') : AgreeOn p (if c then r else q) (if c' then r' else q') := by
  by_cases h : c
  · rwa [if_pos h, if_pos (hc.1 h)]
  · rwa [if_neg h, if_neg (mt hc.2 h)]

theorem AgreeOn.next_left {r' : Result} {t : State} (h : AgreeOn p (.next t) r') :
    ∃ u, r' = .next u ∧ p u = p t := by
  obtain ⟨u, hu, hpu⟩ := andThen_next.1 h.symm
  exact ⟨u, hu, Host.Outcome.next.inj hpu⟩

theorem andThen_assoc (r : Result) (f g : State → Result) :
    andThen (andThen r f) g = andThen r fun t => andThen (f t) g := by
  cases r <;> rfl

/-- The side after `g` may be computed from the side before it. -/
theorem FactorsThrough.andThen_eq {g : State → Result} (hg : FactorsThrough p g) (r : Result) :
    andThen (andThen r g) (fun t => .next (p t)) =
      andThen (andThen r fun t => .next (p t)) fun t => andThen (g t) fun u => .next (p u) := by
  rw [andThen_assoc, andThen_assoc]
  exact congrArg (andThen r) (funext hg)

theorem AgreeOn.andThen {r r' : Result} {g : State → Result} (h : AgreeOn p r r') (hg : FactorsThrough p g) :
    AgreeOn p (andThen r g) (andThen r' g) := by
  unfold AgreeOn at h ⊢
  rw [hg.andThen_eq, hg.andThen_eq, h]

/-- From a state that agrees on the side an operation completes too, and the results agree on it. -/
theorem FactorsThrough.completes {f : State → Result} (hf : FactorsThrough p f) {s a b : State} (hside : p a = p s)
    (h : f s = .next b) : ∃ x, f a = .next x ∧ p x = p b := by
  have hs : AgreeOn p (.next b) (f (p s)) := h ▸ hf s
  have ha : AgreeOn p (f (p s)) (f a) := hside ▸ (hf a).symm
  exact AgreeOn.next_left (hs.trans ha)

end

theorem transmitSide_transmitSide (k : Bool) (s : State) :
    transmitSide k (transmitSide k s) = transmitSide k s := by
  cases k <;> rfl

/-! #### The receive operations

Each proof follows the branches of its operation: a test reads nothing but the side, so it comes out the same (`Iff.rfl`),
and each branch leaves the same side or the same stop. -/

theorem receiveSide_appendSample (g : Nat) (s : State) :
    receiveSide (appendSample g s) = receiveSide (appendSample g (receiveSide s)) := by
  have hfits : fitsCap (receiveSide s).cfg.rxCap ((receiveSide s).rxSamples.length + 1) =
    fitsCap s.cfg.rxCap (s.rxSamples.length + 1) := rfl
  unfold appendSample
  rw [hfits]
  cases fitsCap s.cfg.rxCap (s.rxSamples.length + 1) <;> rfl

theorem receiveSide_handOff (s : State) : receiveSide (handOff s) = receiveSide (handOff (receiveSide s)) := by
  have hdecode : decodeFrame (receiveSide s).cfg (receiveSide s).rxPre (receiveSide s).rxSamples =
    decodeFrame s.cfg s.rxPre s.rxSamples := rfl
  unfold handOff
  rw [hdecode]
  cases decodeFrame s.cfg s.rxPre s.rxSamples <;> rfl

theorem receiveSide_frameReset (s : State) : receiveSide (frameReset s) = frameReset (receiveSide s) := rfl

theorem receiveSide_acceptEdge (ts : Nat) (lvl : Level) (s : State) :
    receiveSide (acceptEdge ts lvl s) = acceptEdge ts lvl (receiveSide s) := rfl

theorem receiveSide_completeFrame (s : State) :
    receiveSide (completeFrame s) = receiveSide (completeFrame (receiveSide s)) := by
  have hcond : handOffCondition (receiveSide s) = handOffCondition s := rfl
  unfold completeFrame
  rw [hcond, receiveSide_frameReset, receiveSide_frameReset]
  cases handOffCondition s with
  | false => rfl
  | true => exact congrArg frameReset (receiveSide_handOff s)

theorem edgeOp_factors (ts : Nat) (lvl : Level) : FactorsThrough receiveSide (edgeOp ts lvl) := by
  intro s
  have hstate : (receiveSide s).rxState = s.rxState := rfl
  unfold edgeOp
  refine .ite Iff.rfl ?_ (.refl _)
  rw [hstate]
  cases s.rxState with
  | idle => exact .next rfl
  | awaitingPreamble => exact .ite Iff.rfl (.next rfl) (.next rfl)
  | receiving =>
    refine .ite Iff.rfl (.next rfl) (.next ?_)
    rw [receiveSide_acceptEdge, receiveSide_acceptEdge]
    exact congrArg (acceptEdge ts lvl) (receiveSide_appendSample (ts - s.rxLastTs) s)

theorem idleCheckOp_factors (now : Nat) : FactorsThrough receiveSide (idleCheckOp now) := fun s =>
  .ite Iff.rfl (.ite Iff.rfl (.next (receiveSide_completeFrame s)) (.next rfl)) (.refl _)

theorem edgeDetect_factors (now : Nat) (lvl : Level) : FactorsThrough receiveSide (edgeDetect now lvl) := fun s =>
  .ite Iff.rfl (.ite Iff.rfl (.next rfl) (edgeOp_factors now lvl { s with edLevel := lvl })) (.next rfl)

theorem exec_receiveOp_factors {j : Instr} (hj : receiveOp j = true) : FactorsThrough receiveSide (exec j) := by
  cases j with
  | edge ts lvl => exact edgeOp_factors ts lvl
  | idleCheck now => exact idleCheckOp_factors now
  | sample now lvl => exact fun s => (idleCheckOp_factors now s).andThen (edgeDetect_factors now lvl)
  | resAck => exact fun s => .next rfl
  | _ => cases hj

/-! #### The transmit operations -/

theorem execEncode_factors (k : Bool) (q : List Byte) : FactorsThrough (transmitSide k) (execEncode q) := fun _ =>
  .ite Iff.rfl (.next rfl) (.ite Iff.rfl (.next rfl) (.next rfl))

theorem execModulate_factors (k : Bool) : FactorsThrough (transmitSide k) execModulate := fun _ =>
  .ite Iff.rfl (.next rfl) (.ite Iff.rfl (.next rfl) (.next rfl))

theorem execReplay_factors (k : Bool) (q : List Nat) : FactorsThrough (transmitSide k) (execReplay q) := fun _ =>
  .ite Iff.rfl (.next rfl) (.ite Iff.rfl (.next rfl) (.next rfl))

theorem execCancel_factors (k : Bool) : FactorsThrough (transmitSide k) execCancel := fun _ =>
  .ite Iff.rfl (.next rfl) (.next rfl)

/-- A TX_STEP's pulse and its bookkeeping (41_bit_modulator.md R126). -/
theorem transmitSide_pulse (k : Bool) (d : Nat) (s : State) :
    transmitSide k (advanceTx (togglePulse d s)) = transmitSide k (advanceTx (togglePulse d (transmitSide k s))) := by
  cases k <;> rfl

theorem execTxStep_factors (k : Bool) : FactorsThrough (transmitSide k) execTxStep := by
  intro s
  have hpulse : nextPulse (transmitSide k s) = nextPulse s := rfl
  unfold execTxStep
  refine .ite Iff.rfl ?_ (.refl _)
  rw [hpulse]
  cases nextPulse s with
  | next d => exact .next (transmitSide_pulse k d s)
  | fault e => exact .refl _
  | refused e => exact .refl _

theorem execEmitDone_factors (k : Bool) : FactorsThrough (transmitSide k) execEmitDone := fun s =>
  .ite Iff.rfl (.ite Iff.rfl (.next (by cases k <;> rfl)) (.next (by cases k <;> rfl)))
    (.next (transmitSide_transmitSide k s).symm)

theorem execEmitFail_factors (k : Bool) : FactorsThrough (transmitSide k) execEmitFail := fun s =>
  .ite Iff.rfl (.next (by cases k <;> rfl)) (.next (transmitSide_transmitSide k s).symm)

theorem exec_transmitOp_factors {i : Instr} (k : Bool) (hi : transmitOp i = true) :
    FactorsThrough (transmitSide k) (exec i) := by
  cases i with
  | encode q => exact execEncode_factors k q
  | modulate => exact execModulate_factors k
  | replay q => exact execReplay_factors k q
  | cancel => exact execCancel_factors k
  | txStep => exact execTxStep_factors k
  | emitDone => exact execEmitDone_factors k
  | emitFail => exact execEmitFail_factors k
  | _ => cases hi

/-- Settles O51: each operation finds its own side as the other left it, so it does to it what it did alone. -/
theorem pipelinesCommute : Obligations.PipelinesCommute := by
  intro i j s a b hi hj ha hb
  obtain ⟨k, hk⟩ : ∃ k : Bool, k = true ↔ j ≠ .resAck := ⟨decide (j ≠ .resAck), decide_eq_true_iff⟩
  obtain ⟨x, hx, hrx⟩ := (exec_receiveOp_factors hj).completes (exec_transmitOp_receiveSide ha hi) hb
  obtain ⟨y, hy, hty⟩ := (exec_transmitOp_factors k hi).completes (exec_receiveOp_transmitSide hb hj hk.1) ha
  have htransmit : transmitSide k x = transmitSide k y := (exec_receiveOp_transmitSide hx hj hk.1).trans hty.symm
  have hreceive : receiveSide x = receiveSide y := hrx.trans (exec_transmitOp_receiveSide hy hi).symm
  obtain ⟨hsameT, hcfg, hstatus⟩ := transmitSide_eq_iff.1 htransmit
  obtain ⟨hsameR, _, _⟩ := receiveSide_eq_iff.1 hreceive
  exact ⟨x, y, hx, hy, hsameT, hsameR, hcfg, fun hne => hstatus (hk.2 hne)⟩

end Sys2Proof.Machine
end

section
/-! PROOFS. The family 30_encoding.md: the codes of the operations, the pulse sequence of a packet, its pulses on the
line, and their way back through the receiver and the Decoder. -/

namespace Sys2Proof.Machine

/-! ### Codes and operations (30_encoding.md R82, R84) -/

theorem reservedCommand_iff (op : BitVec 4) : reservedCommand op = true ↔ op.toNat = 0 ∨ 7 ≤ op.toNat := by
  simp [reservedCommand, BitVec.le_def, ← BitVec.toNat_inj]

theorem reservedEvent_iff (ev : BitVec 3) : reservedEvent ev = true ↔ ev.toNat = 0 ∨ 6 ≤ ev.toNat := by
  simp [reservedEvent, BitVec.le_def, ← BitVec.toNat_inj]

theorem decodeCommand_of_reserved {op : BitVec 4} (h : reservedCommand op = true) (pay : List Byte) (seq : List Nat) :
    decodeCommand op pay seq = .cmdReserved op := by
  have hop := (reservedCommand_iff op).1 h
  unfold decodeCommand
  split
  case h_7 => rfl
  all_goals omega

theorem decodeEvent_of_reserved {ev : BitVec 3} (h : reservedEvent ev = true) (time : Nat) (lvl : Level) :
    decodeEvent ev time lvl = .evtReserved ev := by
  have hev := (reservedEvent_iff ev).1 h
  unfold decodeEvent
  split
  case h_6 => rfl
  all_goals omega

theorem decode_encode {i : Instr} {x : Input} (hwf : wellFormed i = true) (h : encode i = some x) : decode x = i := by
  cases i with
  | cmdReserved op =>
    cases h
    exact decodeCommand_of_reserved hwf [] []
  | evtReserved ev =>
    cases h
    exact decodeEvent_of_reserved hwf 0 .off
  | txStep | demodulate | decode | emit | packet | start | bit0 | bit1 => cases h
  | _ =>
    cases h
    rfl

/-- A code that is none of the operations' own is a reserved one. -/
theorem decodeCommand_wellFormed (op : BitVec 4) (pay : List Byte) (seq : List Nat) :
    wellFormed (decodeCommand op pay seq) = true := by
  unfold decodeCommand
  split
  case h_7 => exact (reservedCommand_iff op).2 (by grind)
  all_goals rfl

theorem decodeEvent_wellFormed (ev : BitVec 3) (time : Nat) (lvl : Level) :
    wellFormed (decodeEvent ev time lvl) = true := by
  unfold decodeEvent
  split
  case h_6 => exact (reservedEvent_iff ev).2 (by grind)
  all_goals rfl

theorem decode_wellFormed (x : Input) : wellFormed (decode x) = true := by
  cases x with
  | command op pay seq => exact decodeCommand_wellFormed op pay seq
  | event ev time lvl => exact decodeEvent_wellFormed ev time lvl

theorem encode_decode_isSome (x : Input) : ∃ y, encode (decode x) = some y := by
  cases x with
  | command op pay seq =>
    show ∃ y, encode (decodeCommand op pay seq) = some y
    unfold decodeCommand
    split <;> exact ⟨_, rfl⟩
  | event ev time lvl =>
    show ∃ y, encode (decodeEvent ev time lvl) = some y
    unfold decodeEvent
    split <;> exact ⟨_, rfl⟩

/-- Settles O2: the second half is the first one at the operation a presentation decodes to. -/
theorem decodeEncodeAgree : Obligations.DecodeEncodeAgree := by
  refine ⟨fun i x => decode_encode, fun x => ⟨decode_wellFormed x, ?_⟩⟩
  obtain ⟨y, hy⟩ := encode_decode_isSome x
  exact ⟨y, hy, decode_encode (decode_wellFormed x) hy⟩

/-- Settles O1: each word is evaluated. -/
theorem tableWordsDecode : Obligations.TableWordsDecode := by
  unfold Obligations.TableWordsDecode
  decide

/-- Settles O40: a reserved command is the caller error IllegalCommand, a reserved event no step at all. -/
theorem reservedCodesResult : Obligations.ReservedCodesResult := by
  refine fun s => ⟨fun op pay seq hop => ⟨?_, rfl⟩, fun ev time lvl hev => ⟨?_, rfl⟩⟩
  · exact decodeCommand_of_reserved ((reservedCommand_iff op).2 (hop.imp_left (congrArg BitVec.toNat))) pay seq
  · exact decodeEvent_of_reserved ((reservedEvent_iff ev).2 (hev.imp_left (congrArg BitVec.toNat))) time lvl

/-! ### The pulse sequence of a packet (30_encoding.md R74, R77) -/

theorem packetBits_getElem? {p : Packet} {j k : Nat} {b : Byte} (hk : k ≤ 7) (hb : (wireBytes p)[j]? = some b) :
    (packetBits p)[8 * j + k]? = some (b.getLsbD (7 - k)) :=
  flatMap_bits_getElem? (wireBytes p) j k b hk hb

theorem modulate_getElem? {p : Packet} {j k : Nat} {b : Byte} (c : Cfg) (hk : k ≤ 7)
    (hb : (wireBytes p)[j]? = some b) :
    (modulate c p)[1 + 8 * j + k]? = some (pulseDur c (b.getLsbD (7 - k))) := by
  rw [modulate, show 1 + 8 * j + k = 8 * j + k + 1 by omega, List.getElem?_cons_succ, List.getElem?_map,
    packetBits_getElem? hk hb]
  rfl

/-- Settles O8: in the converse, element `i` is bit `(i - 1) mod 8` of byte `(i - 1) div 8`. -/
theorem pulseSequenceElements : Obligations.PulseSequenceElements := by
  intro c p
  refine ⟨by rw [modulate_length, wireBytes_length], wireBytes_length p, rfl,
    fun j k b hk hb => modulate_getElem? c hk hb, fun i b hi hb => ?_⟩
  have hindex : 1 + 8 * ((i - 1) / 8) + (i - 1) % 8 = i := by omega
  have hk : (i - 1) % 8 ≤ 7 := by omega
  have h := modulate_getElem? c hk hb
  rwa [hindex] at h

theorem sum_map_pulseDur (c : Cfg) (bits : List Bool) :
    (bits.map (pulseDur c)).sum = bits.count false * tShort c + bits.count true * tLong c := by
  induction bits with
  | nil => simp
  | cons b bits ih =>
    rw [List.map_cons, List.sum_cons, ih]
    cases b <;> simp [pulseDur] <;> ring

/-- Settles O9: the 0 bits are the bits that are not 1. -/
theorem pulseSequenceSizeAndDuration : Obligations.PulseSequenceSizeAndDuration := by
  rintro c p n o rfl rfl
  have hbits : (packetBits p).count false + (packetBits p).count true = 8 * (6 + p.pay.length) := by
    rw [List.count_false_add_count_true, packetBits_length]
  refine ⟨wireBytes_length p, packetBits_length p, modulate_length c p, by omega, ?_⟩
  rw [modulate, List.sum_cons, sum_map_pulseDur, ← hbits, Nat.add_sub_cancel, Nat.add_assoc]

/-! ### The pulses of a packet on the line (30_encoding.md R75, R76) -/

/-- Settles O19: each symbol is one pulse, and its class is the duration. -/
theorem wireSymbolPulses : Obligations.WireSymbolPulses := fun _ => ⟨rfl, rfl, rfl⟩

theorem iterate_toggle_even {n : Nat} (h : n % 2 = 0) (l : Level) : toggle^[n] l = l := by
  have hinv : Function.Involutive toggle := toggle_toggle
  rw [hinv.iterate_even (Nat.even_iff.2 h), id]

theorem iterate_toggle_succ (i : Nat) (l : Level) : toggle^[i + 1] l = if i % 2 = 0 then toggle l else l := by
  split
  · rename_i h
    rw [Function.iterate_succ_apply, iterate_toggle_even h]
  · exact iterate_toggle_even (by omega) l

/-- A row of data bits: a pulse per bit, the level toggling before each (41_bit_modulator.md R122). -/
theorem bitPulses_eq (bits : List Bool) (s : State) :
    bitPulses bits s =
      { s with
        txLevel := toggle^[bits.length] s.txLevel
        hist := s.hist ++ bits.mapIdx fun i b => .emit (toggle^[i + 1] s.txLevel) (pulseDur s.cfg b) } := by
  induction bits generalizing s with
  | nil => simp [bitPulses]
  | cons b bits ih =>
    rw [show bitPulses (b :: bits) s = bitPulses bits (togglePulse (pulseDur s.cfg b) s) from rfl, ih,
      List.mapIdx_cons]
    simp [togglePulse, pulseAt]

/-- Settles O21: eight bits a byte are an even number of toggles. -/
theorem packetOnTheWire : Obligations.PacketOnTheWire := by
  intro s p
  have heven : (packetBits p).length % 2 = 0 := by rw [packetBits_length]; omega
  show Host.Outcome.next (bitPulses (packetBits p) s) = _
  rw [bitPulses_eq, iterate_toggle_even heven]
  simp only [iterate_toggle_succ]

/-- The start marker is element 0, data bit `i` element `i + 1`. -/
theorem packetEmits_eq (c : Cfg) (p : Packet) :
    packetEmits c p = .emit (toggle c.idleLevel) (tPre c) ::
      (packetBits p).mapIdx fun i b => .emit (elementLevel c (i + 1)) (pulseDur c b) := by
  rw [packetEmits, modulate, List.mapIdx_cons]
  refine congrArg₂ List.cons rfl (List.ext_getElem? fun i => ?_)
  simp [Function.comp_def]

theorem elementLevel_succ_ite (c : Cfg) (i : Nat) :
    elementLevel c (i + 1) = if i % 2 = 0 then toggle (toggle c.idleLevel) else toggle c.idleLevel := by
  rw [elementLevel_succ, elementLevel]
  split <;> rfl

/-- Settles O20: PACKET begins at the level of the start marker, so its pulses are at the levels of the elements. -/
theorem startThenPacketOnTheWire : Obligations.StartThenPacketOnTheWire := by
  refine fun s p => ⟨_, rfl, ?_⟩
  rw [packetOnTheWire]
  simp [packetEmits_eq, elementLevel_succ_ite, pulseAt]

/-! ### The Decoder on a modulated packet (43_decoder.md R191) -/

theorem cipher_cipher (key : Vector Byte 16) (p : List Byte) : cipher key (cipher key p) = p := by
  refine List.ext_getElem? fun i => ?_
  rw [cipher_getElem?, cipher_getElem?, Option.map_map]
  simp [Function.comp_def]

theorem encodePacket_len {p : List Byte} (c : Cfg) (hp : p.length ≤ 255) :
    (encodePacket c p).len.toNat = p.length := by
  rw [encodePacket, BitVec.toNat_ofNat]
  exact Nat.mod_eq_of_lt (by omega)

/-- The wire bytes of an encoded payload decode to the payload. -/
theorem decodeBytes_encodePacket {p : List Byte} (c : Cfg) (hp : p.length ≤ 255) :
    decodeBytes c (wireBytes (encodePacket c p)) = .ok c.signature (BitVec.ofNat 8 p.length) p := by
  have hlen : (BitVec.ofNat 8 p.length).toNat = p.length := encodePacket_len c hp
  have hbytes : wireBytes (encodePacket c p) =
      c.signature.b0 :: c.signature.b1 :: c.signature.b2 :: c.signature.b3 :: BitVec.ofNat 8 p.length ::
        (cipher c.cipherKey p ++ [xorReduce p]) := by
    simp [wireBytes, sigBytes, encodePacket]
  have htake : (cipher c.cipherKey p ++ [xorReduce p]).take p.length = cipher c.cipherKey p :=
    List.take_left' (cipher_length _ _)
  rw [hbytes, decodeBytes_cons, hlen, htake, cipher_cipher]
  simp [Nat.add_comm]

/-- Exactly measured pulses give back the wire bytes. -/
theorem decodeFrame_pulses {c : Cfg} (hsl : c.shortUnits < c.longUnits) (p : Packet) :
    decodeFrame c (tPre c) ((packetBits p).map (pulseDur c)) = decodeBytes c (wireBytes p) := by
  have hcount : ((packetBits p).map (pulseDur c)).length % 8 = 0 := by
    rw [List.length_map, packetBits_length, Nat.mul_mod_right]
  have hbytes : demodBytes c (tPre c) ((packetBits p).map (pulseDur c)) = wireBytes p :=
    demodBytes_flatMap c (tPre c) (pulseDur c) (sampleBit_pulseDur c hsl) (wireBytes p)
  rw [decodeFrame, demodulate, if_pos hcount, hbytes]

/-! ### The edges of a line at the receiver (42_receiver_fsm.md R152 to R157) -/

theorem step_edgeTurn {s : State} {ts : Nat} {lvl : Level} {rest : List Turn}
    (h : s.turns = edgeTurn (ts, lvl) :: rest) : step s = edgeOp ts lvl { s with turns := rest } :=
  step_input h

theorem step_idleTurn {s : State} {now : Nat} {rest : List Turn} (h : s.turns = idleTurn now :: rest) :
    step s = idleCheckOp now { s with turns := rest } :=
  step_input h

/-- The edges after the first of a line that stands at `lvl` since `t` and toggles after each of the durations. -/
def laterEdges (t : Nat) (lvl : Level) : List Nat → List Turn
  | [] => []
  | d :: ds => edgeTurn (t + d, toggle lvl) :: laterEdges (t + d) (toggle lvl) ds

theorem edgeTurns_eq (t : Nat) (lvl : Level) (ds : List Nat) :
    edgeTurns t lvl ds = edgeTurn (t, lvl) :: laterEdges t lvl ds := by
  induction ds generalizing t lvl with
  | nil => rfl
  | cons d ds ih => rw [edgeTurns, ih]; rfl

theorem fitsCap_mono {cap : Option Nat} {m n : Nat} (hmn : m ≤ n) (h : fitsCap cap n = true) :
    fitsCap cap m = true := by
  cases cap with
  | none => rfl
  | some k => exact decide_eq_true (hmn.trans (of_decide_eq_true h))

theorem edgeOp_idle {s : State} (h : s.rxState = .idle) (ts : Nat) (lvl : Level) :
    edgeOp ts lvl s = .next { acceptEdge ts lvl s with rxState := .awaitingPreamble } := by
  simp [edgeOp, timeLegal, h]

theorem edgeOp_preamble {s : State} {d : Nat} (h : s.rxState = .awaitingPreamble) (hd : s.cfg.rxRejectPeriod < d)
    (lvl : Level) :
    edgeOp (s.rxLastTs + d) lvl s =
      .next { acceptEdge (s.rxLastTs + d) lvl s with rxPre := d, rxState := .receiving } := by
  simp [edgeOp, timeLegal, h, hd]

theorem edgeOp_sample {s : State} {d : Nat} (h : s.rxState = .receiving) (hd : s.cfg.rxRejectPeriod < d)
    (hfits : fitsCap s.cfg.rxCap (s.rxSamples.length + 1) = true) (lvl : Level) :
    edgeOp (s.rxLastTs + d) lvl s =
      .next (acceptEdge (s.rxLastTs + d) lvl { s with rxSamples := s.rxSamples ++ [d] }) := by
  simp [edgeOp, timeLegal, appendSample, h, hd, hfits]

/-- The receiver after one accepted edge for each of the durations. -/
def afterSamples (ds : List Nat) (rest : List Turn) (s : State) : State :=
  { s with rxSamples := s.rxSamples ++ ds, rxLastTs := s.rxLastTs + ds.sum
           rxLastLevel := toggle^[ds.length] s.rxLastLevel, turns := rest }

theorem step_sample {s : State} {d : Nat} {rest : List Turn} (hs : s.rxState = .receiving)
    (hd : s.cfg.rxRejectPeriod < d) (hfits : fitsCap s.cfg.rxCap (s.rxSamples.length + 1) = true)
    (hturns : s.turns = edgeTurn (s.rxLastTs + d, toggle s.rxLastLevel) :: rest) :
    step s = .next (afterSamples [d] rest s) :=
  (step_edgeTurn hturns).trans (edgeOp_sample (s := { s with turns := rest }) hs hd hfits (toggle s.rxLastLevel))

theorem afterSamples_cons (d : Nat) (ds : List Nat) (mid rest : List Turn) (s : State) :
    afterSamples ds rest (afterSamples [d] mid s) = afterSamples (d :: ds) rest s := by
  simp [afterSamples, Nat.add_assoc]

/-- In `Receiving` every duration above the floor becomes a sample while the buffer has room. -/
theorem runSteps_laterEdges {s : State} {rest : List Turn} (ds : List Nat) (hs : s.rxState = .receiving)
    (hfloor : ∀ d ∈ ds, s.cfg.rxRejectPeriod < d)
    (hfits : fitsCap s.cfg.rxCap (s.rxSamples.length + ds.length) = true)
    (hturns : s.turns = laterEdges s.rxLastTs s.rxLastLevel ds ++ rest) :
    runSteps ds.length s = .next (afterSamples ds rest s) := by
  induction ds generalizing s with
  | nil =>
    obtain rfl : s.turns = rest := hturns
    simp [afterSamples]
  | cons d ds ih =>
    obtain ⟨hd, hds⟩ := List.forall_mem_cons.1 hfloor
    have hroom : fitsCap s.cfg.rxCap (s.rxSamples.length + 1) = true :=
      fitsCap_mono (by rw [List.length_cons]; omega) hfits
    have hrest : fitsCap s.cfg.rxCap ((s.rxSamples ++ [d]).length + ds.length) = true := by
      rwa [List.length_append, List.length_singleton, Nat.add_assoc, Nat.add_comm 1]
    have hlater := ih (s := afterSamples [d] (laterEdges (s.rxLastTs + d) (toggle s.rxLastLevel) ds ++ rest) s)
      hs hds hrest rfl
    rw [List.length_cons, runSteps_succ _ (step_sample hs hd hroom hturns)]
    exact hlater.trans (congrArg Host.Outcome.next (afterSamples_cons d ds _ rest s))

/-- The receiver after the first edge of a frame (R154). -/
def afterFirstEdge (t : Nat) (lvl : Level) (rest : List Turn) (s : State) : State :=
  { s with rxState := .awaitingPreamble, rxLastTs := t, rxLastLevel := lvl, turns := rest }

theorem step_firstEdge {s : State} {t : Nat} {lvl : Level} {rest : List Turn} (hs : s.rxState = .idle)
    (hturns : s.turns = edgeTurn (t, lvl) :: rest) : step s = .next (afterFirstEdge t lvl rest s) :=
  (step_edgeTurn hturns).trans (edgeOp_idle (s := { s with turns := rest }) hs t lvl)

/-- The receiver after the second edge of a frame, `pre` after the first (R155). -/
def afterPreamble (pre : Nat) (lvl : Level) (rest : List Turn) (s : State) : State :=
  { s with rxState := .receiving, rxPre := pre, rxLastTs := s.rxLastTs + pre, rxLastLevel := lvl, turns := rest }

theorem step_secondEdge {s : State} {pre : Nat} {lvl : Level} {rest : List Turn} (hs : s.rxState = .awaitingPreamble)
    (hpre : s.cfg.rxRejectPeriod < pre) (hturns : s.turns = edgeTurn (s.rxLastTs + pre, lvl) :: rest) :
    step s = .next (afterPreamble pre lvl rest s) :=
  (step_edgeTurn hturns).trans (edgeOp_preamble (s := { s with turns := rest }) hs hpre lvl)

/-- The receiver after every edge of a frame. -/
def afterEdges (t pre : Nat) (lvl : Level) (ds : List Nat) (rest : List Turn) (s : State) : State :=
  { s with rxState := .receiving, rxPre := pre, rxSamples := s.rxSamples ++ ds
           rxLastTs := t + (pre :: ds).sum, rxLastLevel := toggle^[(pre :: ds).length] lvl, turns := rest }

theorem afterEdges_eq (t pre : Nat) (lvl : Level) (ds : List Nat) (first second rest : List Turn) (s : State) :
    afterSamples ds rest (afterPreamble pre (toggle lvl) second (afterFirstEdge t lvl first s)) =
      afterEdges t pre lvl ds rest s := by
  simp [afterSamples, afterPreamble, afterFirstEdge, afterEdges, Nat.add_assoc]

/-- Every edge of a frame, from `Idle`. -/
theorem runSteps_edgeTurns {s : State} {t pre : Nat} {lvl : Level} {ds : List Nat} {rest : List Turn}
    (hs : s.rxState = .idle) (hpre : s.cfg.rxRejectPeriod < pre) (hfloor : ∀ d ∈ ds, s.cfg.rxRejectPeriod < d)
    (hfits : fitsCap s.cfg.rxCap (s.rxSamples.length + ds.length) = true)
    (hturns : s.turns = edgeTurns t lvl (pre :: ds) ++ rest) :
    runSteps (ds.length + 2) s = .next (afterEdges t pre lvl ds rest s) := by
  rw [edgeTurns_eq] at hturns
  rw [runSteps_succ _ (step_firstEdge hs hturns),
    runSteps_succ _ (step_secondEdge (s := afterFirstEdge t lvl _ s) rfl hpre rfl), ← afterEdges_eq]
  exact runSteps_laterEdges (s := afterPreamble pre (toggle lvl) _ _) ds rfl hfloor hfits rfl

/-! ### The idle check that completes a frame (42_receiver_fsm.md R160 to R163) -/

theorem idleCheckOp_timedOut {s : State} {now : Nat} (hs : s.rxState ≠ .idle)
    (hnow : s.rxLastTs + s.cfg.rxEndPeriod < now) : idleCheckOp now s = .next (completeFrame s) := by
  have hlegal : timeLegal s now = true := timeLegal_iff.2 (.inr (by omega))
  have hout : timedOut now s = true := timedOut_iff.2 ⟨hs, by omega⟩
  rw [idleCheckOp, if_pos hlegal, if_pos hout]

theorem completeFrame_decoded {s : State} {sig : Sig} {len : Byte} {pay : List Byte}
    (hhand : handOffCondition s = true) (hdec : decodeFrame s.cfg s.rxPre s.rxSamples = .ok sig len pay) :
    completeFrame s =
      frameReset (recordFrame (.ok sig len pay) { s with resSig := sig, resLen := len, resPay := pay }) := by
  rw [completeFrame, if_pos hhand, handOff, hdec, storeResult]

/-- The fresh accumulator of 10_state.md R45, as far as a frame depends on it. -/
structure FreshReceiver (s : State) : Prop where
  idle : s.rxState = .idle
  pre : s.rxPre = 0
  samples : s.rxSamples = []
  overflow : s.rxOverflow = false

/-- A frame that decodes, from its first edge to the idle check that hands it over. -/
theorem runSteps_frame {s : State} {t pre now : Nat} {lvl : Level} {ds : List Nat} {rest : List Turn} {sig : Sig}
    {len : Byte} {pay : List Byte} (hs : FreshReceiver s) (hpre : s.cfg.rxRejectPeriod < pre)
    (hfloor : ∀ d ∈ ds, s.cfg.rxRejectPeriod < d) (hfits : fitsCap s.cfg.rxCap ds.length = true)
    (hmin : s.cfg.minRxBytes ≤ ds.length) (hdec : decodeFrame s.cfg pre ds = .ok sig len pay)
    (hnow : t + (pre :: ds).sum + s.cfg.rxEndPeriod < now)
    (hturns : s.turns = edgeTurns t lvl (pre :: ds) ++ (idleTurn now :: rest)) :
    runSteps (ds.length + 2 + 1) s = .next
      { s with resStatus := .ok, resSig := sig, resLen := len, resPay := pay
               resValid := true, resOverrun := s.resOverrun || s.resValid, resPre := pre
               resSamples := ds, resLastLevel := toggle^[ds.length + 1] lvl
               rxLastLevel := .off, rxLastTs := 0, turns := rest
               hist := s.hist ++ [.frameOut (.ok sig len pay) pre ds (toggle^[ds.length + 1] lvl)] } := by
  obtain ⟨hidle, hrxPre, hrxSamples, hoverflow⟩ := hs
  have hroom : fitsCap s.cfg.rxCap (s.rxSamples.length + ds.length) = true := by
    rwa [hrxSamples, List.length_nil, Nat.zero_add]
  have hedges := runSteps_edgeTurns hidle hpre hfloor hroom hturns
  have hcheck := (step_idleTurn (s := afterEdges t pre lvl ds (idleTurn now :: rest) s) rfl).trans
    (idleCheckOp_timedOut (s := { afterEdges t pre lvl ds _ s with turns := rest }) nofun hnow)
  rw [runSteps_add _ 1 hedges, runSteps_succ 0 hcheck, completeFrame_decoded (sig := sig) (len := len) (pay := pay)]
  · simp [frameReset, recordFrame, resultStatus, afterEdges, hidle, hrxPre, hrxSamples, hoverflow]
  · exact handOffCondition_iff.2 ⟨by simpa [afterEdges, hrxSamples] using hmin, hpre, hoverflow⟩
  · simpa [afterEdges, hrxSamples] using hdec

/-! ### A transmitted packet at the receiver (30_encoding.md R78) -/

theorem rejectPeriod_lt_pulseDur {c : Cfg} (hc : CfgOK c) (b : Bool) : c.rxRejectPeriod < pulseDur c b := by
  have hshort : c.rxRejectPeriod < tShort c := hc.reject_lt_short
  have hlong : tShort c < tLong c := (Nat.mul_lt_mul_right hc.tUnit_pos).2 hc.short_lt_long
  cases b with
  | false => exact hshort
  | true => exact hshort.trans hlong

theorem packetBits_encodePacket_length (c : Cfg) (p : List Byte) :
    (packetBits (encodePacket c p)).length = 8 * (6 + p.length) := by
  rw [packetBits_length, encodePacket, cipher_length]

/-- Settles O57: every edge of the transmission is accepted, the idle check after the timeout hands the frame over, and
the frame decodes to the payload. -/
theorem transmittedPacketIsReceived : Obligations.TransmittedPacketIsReceived := by
  intro s p t0 now rest hc hp hidle hpre hsamples hoverflow hnow hturns
  have hlength : ((packetBits (encodePacket s.cfg p)).map (pulseDur s.cfg)).length = 8 * (6 + p.length) := by
    rw [List.length_map, packetBits_encodePacket_length]
  have hfloor : ∀ d ∈ (packetBits (encodePacket s.cfg p)).map (pulseDur s.cfg), s.cfg.rxRejectPeriod < d :=
    List.forall_mem_map.2 fun b _ => rejectPeriod_lt_pulseDur hc b
  have hdec := (decodeFrame_pulses hc.short_lt_long (encodePacket s.cfg p)).trans (decodeBytes_encodePacket s.cfg hp)
  have hmin : s.cfg.minRxBytes ≤ 8 * (6 + p.length) := hc.min_le.trans (by omega)
  have hfits : fitsCap s.cfg.rxCap (8 * (6 + p.length)) = true := fitsCap_mono (by omega) hc.rxCap_ge
  have hlevel : toggle^[8 * (6 + p.length) + 1] (toggle s.cfg.idleLevel) = s.cfg.idleLevel := by
    rw [Function.iterate_succ_apply, toggle_toggle, iterate_toggle_even (by omega)]
  have hrun := runSteps_frame ⟨hidle, hpre, hsamples, hoverflow⟩ hc.reject_lt_pre hfloor (hlength ▸ hfits)
    (hlength ▸ hmin) hdec hnow hturns
  rwa [hlength, hlevel, Nat.add_comm _ 2] at hrun

end Sys2Proof.Machine
end

section
/-! PROOFS. The family 40_framer_encoder.md: the checksum, the cipher, and what ENCODE does in each of its cases. -/

namespace Sys2Proof.Machine

/-! ### The checksum of a sequence extended at its end (40_framer_encoder.md R103) -/

theorem xorReduce_append (s u : List Byte) : xorReduce (s ++ u) = xorReduce s ^^^ xorReduce u := by
  rw [xorReduce, List.foldl_append, xorReduce_foldl, ← xorReduce]

theorem xorReduce_singleton (b : Byte) : xorReduce [b] = b := BitVec.zero_xor

/-- Settles O4: an appended byte is an appended sequence of one byte, whose reduction is that byte. -/
theorem xorReduceOfPlaintext : Obligations.XorReduceOfPlaintext :=
  ⟨rfl, fun s b => by rw [xorReduce_append, xorReduce_singleton], xorReduce_singleton⟩

/-! ### The cipher (40_framer_encoder.md R104, R105) -/

/-- Settles O5: the key byte is the one `keyByte` names. -/
theorem cipherMeetsKeyByte : Obligations.CipherMeetsKeyByte := by
  refine fun key s => ⟨cipher_length key s, fun i b hb => ⟨keyByte key i, keyByte_mem key i, ?_⟩⟩
  rw [cipher_getElem?, hb, Option.map_some]

/-- Settles O6: each byte meets the same key byte twice. -/
theorem cipherIsItsOwnInverse : Obligations.CipherIsItsOwnInverse := cipher_cipher

/-! ### ENCODE (40_framer_encoder.md R100, R109) -/

theorem payloadFits_iff (p : List Byte) : payloadFits p = true ↔ p.length ≤ 255 := decide_eq_true_iff

theorem exec_encode_busy {s : State} {p : List Byte} (hactive : s.txState = .active) :
    exec (.encode p) s = .next (callerError (.encode p) .busy s) := if_pos hactive

theorem exec_encode_payloadTooLarge {s : State} {p : List Byte} (hactive : s.txState ≠ .active)
    (hlen : 255 < p.length) : exec (.encode p) s = .next (callerError (.encode p) .payloadTooLarge s) :=
  (if_neg hactive).trans (if_neg fun hfits => absurd ((payloadFits_iff p).1 hfits) (by omega))

theorem exec_encode_ok {s : State} {p : List Byte} (hactive : s.txState ≠ .active) (hlen : p.length ≤ 255) :
    exec (.encode p) s = .next (answer (.encode p) .ok
      { s with pktSig := (encodePacket s.cfg p).sig, pktLen := (encodePacket s.cfg p).len
               pktPay := (encodePacket s.cfg p).pay, pktChk := (encodePacket s.cfg p).chk, pktValid := true }) :=
  (if_neg hactive).trans (if_pos ((payloadFits_iff p).2 hlen))

/-- Settles O7: one equation per case; `answer`, `callerError` and `encodePacket` are the fields the statement lists. -/
theorem encodeResult : Obligations.EncodeResult := fun _ _ =>
  ⟨exec_encode_busy, exec_encode_payloadTooLarge, exec_encode_ok⟩

end Sys2Proof.Machine
end

section
/-! PROOFS. The family 41_bit_modulator.md: what each transmit operation does in each of its cases, the run of a whole
transmission, the Emits of a step, and the demodulator. -/

namespace Sys2Proof.Machine

/-! ### MODULATE (41_bit_modulator.md R124, R125) -/

theorem exec_modulate_busy {s : State} (hbusy : s.txState ≠ .idle) :
    exec .modulate s = .next (callerError .modulate .busy s) := if_pos hbusy

theorem exec_modulate_noPacket {s : State} (hidle : s.txState = .idle) (hnone : s.pktValid = false) :
    exec .modulate s = .next (callerError .modulate .noPacket s) :=
  (if_neg (not_not.2 hidle)).trans (if_neg (ne_true_of_eq_false hnone))

theorem exec_modulate_ok {s : State} (hidle : s.txState = .idle) (hvalid : s.pktValid = true) :
    exec .modulate s = .next (answer .modulate .ok (startTx .packet (1 + 8 * (6 + s.pktLen.toNat)) s)) :=
  (if_neg (not_not.2 hidle)).trans (if_pos hvalid)

/-- Settles O10: one equation per case; `answer` and `startTx` write the fields the statement lists. -/
theorem modulateResult : Obligations.ModulateResult := fun _ =>
  ⟨exec_modulate_busy, exec_modulate_noPacket, exec_modulate_ok⟩

/-! ### REPLAY (41_bit_modulator.md R134, R135) -/

theorem fitsCap_iff {cap : Option Nat} {n : Nat} : fitsCap cap n = true ↔ ∀ c, cap = some c → n ≤ c := by
  cases cap <;> simp [fitsCap]

theorem sequenceLegal_iff {c : Cfg} {seq : List Nat} :
    sequenceLegal c seq = true ↔
      seq ≠ [] ∧ (∀ cap, c.rawCap = some cap → seq.length ≤ cap) ∧ ∀ d ∈ seq, 0 < d := by
  simp [sequenceLegal, fitsCap_iff]

theorem exec_replay_busy {s : State} {seq : List Nat} (hbusy : s.txState ≠ .idle) :
    exec (.replay seq) s = .next (callerError (.replay seq) .busy s) := if_pos hbusy

theorem exec_replay_badSequence {s : State} {seq : List Nat} (hidle : s.txState = .idle)
    (hbad : sequenceLegal s.cfg seq ≠ true) :
    exec (.replay seq) s = .next (callerError (.replay seq) .badSequence s) :=
  (if_neg (not_not.2 hidle)).trans (if_neg hbad)

theorem exec_replay_ok {s : State} {seq : List Nat} (hidle : s.txState = .idle)
    (hlegal : sequenceLegal s.cfg seq = true) :
    exec (.replay seq) s = .next (answer (.replay seq) .ok (startTx .raw seq.length { s with rawSeq := seq })) :=
  (if_neg (not_not.2 hidle)).trans (if_pos hlegal)

/-- Settles O11: each of the three faults of a sequence breaks a part of its legality. -/
theorem replayResult : Obligations.ReplayResult := by
  refine fun seq s => ⟨exec_replay_busy, fun hidle hbad => exec_replay_badSequence hidle fun hlegal => ?_,
    fun hidle hne hpos hcap => exec_replay_ok hidle (sequenceLegal_iff.2 ⟨hne, hcap, hpos⟩)⟩
  obtain ⟨hne, hcap, hpos⟩ := sequenceLegal_iff.1 hlegal
  obtain hempty | hzero | ⟨cap, hc, hlong⟩ := hbad
  · exact hne hempty
  · exact Nat.lt_irrefl 0 (hpos 0 hzero)
  · exact Nat.not_le_of_lt hlong (hcap cap hc)

/-! ### CANCEL (41_bit_modulator.md R132) -/

theorem cancelEvents_pending {s : State} (h : s.txPending = true) : cancelEvents s = [.emitCancel] := if_pos h

theorem cancelEvents_free {s : State} (h : s.txPending = false) : cancelEvents s = [] := by simp [cancelEvents, h]

theorem exec_cancel_active {s : State} (hactive : s.txState = .active) :
    exec .cancel s = .next (answer .cancel .ok (abandonTx s)) := if_pos hactive

/-- Settles O12: the two cases in `TxActive` are the two values of `cancelEvents`. -/
theorem cancelResult : Obligations.CancelResult := by
  refine fun s => ⟨fun hquiet => if_neg hquiet, fun hactive hpend => ?_, fun hactive hfree => ?_⟩
  · rw [exec_cancel_active hactive]
    simp [answer, abandonTx, cancelEvents_pending hpend]
  · rw [exec_cancel_active hactive]
    simp [answer, abandonTx, cancelEvents_free hfree, hfree]

/-! ### TX_STEP (41_bit_modulator.md R126) -/

theorem exec_txStep_notEnabled {s : State} (h : txReady s ≠ true) : exec .txStep s = .refused .notEnabled := if_neg h

theorem exec_txStep_ready {s : State} {d : Nat} (hready : txReady s = true) (hpulse : nextPulse s = .next d) :
    exec .txStep s = .next (advanceTx (togglePulse d s)) :=
  execTxStep_next.2 ⟨hready, d, hpulse, rfl⟩

theorem packetPulse_start {s : State} (h : s.txIdx = 0) : packetPulse s = .next (tPre s.cfg) :=
  packetPulse_next.2 (.inl ⟨h, rfl⟩)

theorem packetPulse_bit {s : State} {j k : Nat} {b : Byte} (hidx : s.txIdx = 1 + 8 * j + k) (hk : k ≤ 7)
    (hvalid : s.pktValid = true) (hb : (wireBytes (pktBuffer s))[j]? = some b) :
    packetPulse s = .next (pulseDur s.cfg (b.getLsbD (7 - k))) := by
  have hbyte : (s.txIdx - 1) / 8 = j := by omega
  have hbit : (s.txIdx - 1) % 8 = k := by omega
  exact packetPulse_next.2 (.inr ⟨by omega, hvalid, b, hbyte ▸ hb, by rw [hbit]⟩)

/-- Settles O13: an enabled TX_STEP issues the pulse its source gives it. -/
theorem txStepResult : Obligations.TxStepResult := by
  refine fun s => ⟨fun hnot => exec_txStep_notEnabled fun hready => ?_, fun hactive hfree hlt => ?_⟩
  · obtain ⟨hactive, hfree, hlt⟩ := txReady_iff.1 hready
    obtain hquiet | hpend | hend := hnot
    · exact hquiet hactive
    · exact absurd (hfree.symm.trans hpend) nofun
    · exact Nat.not_le_of_lt hlt hend
  · have hready : txReady s = true := txReady_iff.2 ⟨hactive, hfree, hlt⟩
    refine ⟨fun hturns => (step_nil hturns).trans (ownStep_of_ready hready), fun hsrc h0 => ?_,
      fun hsrc j k b hidx hk hvalid hb => ?_, fun hsrc d hd => ?_⟩
    · exact exec_txStep_ready hready ((nextPulse_packet hsrc).trans (packetPulse_start h0))
    · exact exec_txStep_ready hready ((nextPulse_packet hsrc).trans (packetPulse_bit hidx hk hvalid hb))
    · exact exec_txStep_ready hready ((nextPulse_raw hsrc).trans (rawPulse_next.2 hd))

/-! ### The driver's handshake (41_bit_modulator.md R127, R129, R131) -/

/-- Settles O16: a positive duration is accepted. -/
theorem emitIsRecorded : Obligations.EmitIsRecorded := fun _ _ _ hdur => if_pos hdur

theorem execEmitDone_ignored {s : State} (hfree : s.txPending = false) : execEmitDone s = .next s := by
  simp [execEmitDone, hfree]

theorem execEmitDone_last {s : State} (hpend : s.txPending = true) (hlast : s.txIdx = s.txCount) :
    execEmitDone s = .next (finishTx { s with txPending := false }) :=
  (if_pos hpend).trans (if_pos hlast)

theorem execEmitDone_more {s : State} (hpend : s.txPending = true) (hmore : s.txIdx ≠ s.txCount) :
    execEmitDone s = .next { s with txPending := false } :=
  (if_pos hpend).trans (if_neg hmore)

/-- Settles O17: the three cases of EMIT_DONE. -/
theorem emitDoneResult : Obligations.EmitDoneResult := fun _ =>
  ⟨execEmitDone_ignored, execEmitDone_more, execEmitDone_last⟩

/-- Settles O18: with nothing outstanding the test fails, else the driver fault is taken. -/
theorem emitFailResult : Obligations.EmitFailResult := fun _ =>
  ⟨fun hfree => if_neg (ne_true_of_eq_false hfree), fun hpend => if_pos hpend⟩

/-! ### The forms without a meaning (41_bit_modulator.md R127, R139, 42_receiver_fsm.md R151) -/

theorem timeLegal_backwards {s : State} {t : Nat} (hbusy : s.rxState ≠ .idle) (hback : t < s.rxLastTs) :
    timeLegal s t ≠ true := fun hlegal =>
  (timeLegal_iff.1 hlegal).elim hbusy (Nat.not_le_of_lt hback)

/-- Settles O14: the time test comes first in EDGE and IDLE_CHECK, and SAMPLE begins with the IDLE_CHECK (R169). -/
theorem refusedForms : Obligations.RefusedForms := by
  refine fun s => ⟨fun _ => rfl, rfl, fun t lvl hbusy hback => ?_⟩
  have hillegal := timeLegal_backwards hbusy hback
  have hcheck : idleCheckOp t s = .refused .timeBackwards := if_neg hillegal
  exact ⟨if_neg hillegal, hcheck, andThen_refused.2 (.inl hcheck)⟩

/-! ### The run of a transmission (41_bit_modulator.md R134, R136) -/

/-- A transmission is between two pulses, and `ds` are the durations of the pulses still to come. -/
structure Transmitting (s : State) (ds : List Nat) : Prop where
  active : s.txState = .active
  free : s.txPending = false
  count : s.txCount = s.txIdx + ds.length
  reads : ∀ j d, ds[j]? = some d → nextPulse { s with txIdx := s.txIdx + j } = .next d

/-- The sequencer after one acknowledged pulse for each of the durations, before it ends the sequence. -/
def afterPulses (ds : List Nat) (rest : List Turn) (s : State) : State :=
  { s with txLevel := toggle^[ds.length] s.txLevel, txIdx := s.txIdx + ds.length, turns := rest
           hist := s.hist ++ ds.mapIdx fun i d => .emit (toggle^[i + 1] s.txLevel) d }

theorem afterPulses_cons (d : Nat) (ds : List Nat) (mid rest : List Turn) (s : State) :
    afterPulses ds rest (afterPulses [d] mid s) = afterPulses (d :: ds) rest s := by
  simp [afterPulses, Nat.add_assoc, Nat.add_comm 1]

theorem Transmitting.ready {s : State} {d : Nat} {ds : List Nat} (h : Transmitting s (d :: ds)) : txReady s = true := by
  have hcount := h.count
  rw [List.length_cons] at hcount
  exact txReady_iff.2 ⟨h.active, h.free, by omega⟩

theorem Transmitting.afterPulse {s : State} {d : Nat} {ds : List Nat} (h : Transmitting s (d :: ds))
    (rest : List Turn) : Transmitting (afterPulses [d] rest s) ds where
  active := h.active
  free := h.free
  count := by
    show s.txCount = s.txIdx + 1 + ds.length
    rw [h.count, List.length_cons]
    omega
  reads j e he := by
    have hread := h.reads (j + 1) e he
    rwa [Nat.add_comm j, ← Nat.add_assoc] at hread

theorem handshakes_succ (n : Nat) :
    handshakes (n + 1) = .own :: .input (.event 0x4#3 0 .off) :: handshakes n := rfl

theorem step_pulse {s : State} {d : Nat} {rest : List Turn} (hready : txReady s = true)
    (hpulse : nextPulse s = .next d) (hturns : s.turns = .own :: rest) :
    step s = .next (advanceTx (togglePulse d { s with turns := rest })) :=
  (step_own hturns).trans ((ownStep_of_ready (s := { s with turns := rest }) hready).trans
    (exec_txStep_ready hready hpulse))

theorem step_emitDone {s : State} {rest : List Turn} (hturns : s.turns = .input (.event 0x4#3 0 .off) :: rest) :
    step s = execEmitDone { s with turns := rest } :=
  step_input hturns

/-- One pulse and its EMIT_DONE: the sequence ends exactly when that was its last pulse (R129). -/
theorem runSteps_handshake {s : State} {d n : Nat} {ds : List Nat} {rest : List Turn} (h : Transmitting s (d :: ds))
    (hturns : s.turns = handshakes (n + 1) ++ rest) :
    runSteps 2 s = .next (if ds = [] then finishTx (afterPulses [d] (handshakes n ++ rest) s)
      else afterPulses [d] (handshakes n ++ rest) s) := by
  have hcount : s.txCount = s.txIdx + (ds.length + 1) := h.count
  have hstate (later : List Turn) :
      { advanceTx (togglePulse d { s with turns := later }) with txPending := false } = afterPulses [d] later s := by
    simp [advanceTx, togglePulse, pulseAt, afterPulses, h.free]
  rw [runSteps_succ 1 (step_pulse h.ready (h.reads 0 d rfl) hturns), ← hstate]
  refine runSteps_succ 0 ((step_emitDone rfl).trans ?_)
  split
  · rename_i hnil
    exact execEmitDone_last rfl (by simp [hcount, hnil])
  · rename_i hne
    have hpos := List.length_pos_iff.2 hne
    exact execEmitDone_more rfl (by simp [hcount]; omega)

/-- Every pulse to the end of the sequence. -/
theorem runSteps_handshakes {s : State} {d : Nat} {ds : List Nat} {rest : List Turn} (h : Transmitting s (d :: ds))
    (hturns : s.turns = handshakes (d :: ds).length ++ rest) :
    runSteps (2 * (d :: ds).length) s = .next (finishTx (afterPulses (d :: ds) rest s)) := by
  induction ds generalizing s d with
  | nil => exact runSteps_handshake (n := 0) h hturns
  | cons e ds ih =>
    have hfirst := runSteps_handshake h hturns
    rw [if_neg (List.cons_ne_nil e ds)] at hfirst
    rw [List.length_cons, Nat.mul_succ, Nat.add_comm, runSteps_add 2 _ hfirst, ih (h.afterPulse _) rfl,
      afterPulses_cons]

theorem elementLevel_eq_iterate (c : Cfg) (i : Nat) : elementLevel c i = toggle^[i + 1] c.idleLevel :=
  (iterate_toggle_succ i c.idleLevel).symm

/-- A transmission from the command that starts it to its TxDone. -/
theorem runSteps_transmission {s t : State} {ds : List Nat} {rest : List Turn} (hstart : step s = .next t)
    (h : Transmitting t ds) (hne : ds ≠ []) (hidx : t.txIdx = 0) (hlevel : t.txLevel = t.cfg.idleLevel)
    (hturns : t.turns = handshakes ds.length ++ rest) :
    runSteps (1 + 2 * ds.length) s = .next
      { t with txState := .idle, txIdx := ds.length, txLevel := t.cfg.idleLevel, turns := rest
               hist := t.hist ++ (ds.mapIdx fun i d => .emit (elementLevel t.cfg i) d) ++ [.txDone] } := by
  cases ds with
  | nil => exact absurd rfl hne
  | cons d ds =>
    rw [Nat.add_comm, runSteps_succ _ hstart, runSteps_handshakes h hturns]
    simp only [finishTx, afterPulses, hidx, hlevel, elementLevel_eq_iterate, Nat.zero_add]

/-- What TX_STEP reads of `PKT`, one bit at a time, is the pulse sequence of the packet (30_encoding.md R74). -/
theorem packetPulse_modulate {s : State} {d : Nat} (hvalid : s.pktValid = true)
    (hd : (modulate s.cfg (pktBuffer s))[s.txIdx]? = some d) : packetPulse s = .next d := by
  obtain ⟨_, _, hstart, _, helement⟩ := pulseSequenceElements s.cfg (pktBuffer s)
  by_cases h0 : s.txIdx = 0
  · rw [h0, hstart] at hd
    exact packetPulse_next.2 (.inl ⟨h0, (Option.some.inj hd).symm⟩)
  · have hlt : s.txIdx < 1 + 8 * (6 + (pktBuffer s).pay.length) := by
      rw [← modulate_length s.cfg]
      exact (List.getElem?_eq_some_iff.1 hd).1
    have hbyte : (s.txIdx - 1) / 8 < (wireBytes (pktBuffer s)).length := by rw [wireBytes_length]; omega
    have hb := List.getElem?_eq_getElem hbyte
    rw [helement s.txIdx _ (by omega) hb] at hd
    exact packetPulse_next.2 (.inr ⟨h0, hvalid, _, hb, (Option.some.inj hd).symm⟩)

/-- Settles O55: MODULATE starts a transmission whose pulses are the elements of the packet's sequence. -/
theorem transmissionEmitsTheModulatedPacket : Obligations.TransmissionEmitsTheModulatedPacket := by
  intro s n rest hidle hfree hvalid hlen hn hturns
  obtain rfl : n = (modulate s.cfg (pktBuffer s)).length := by rw [modulate_length, hn, ← hlen]; rfl
  have hstart := (step_input hturns).trans
    (exec_modulate_ok (s := { s with turns := handshakes _ ++ rest }) hidle hvalid)
  have hrun := runSteps_transmission (ds := modulate s.cfg (pktBuffer s)) hstart
    { active := rfl
      free := hfree
      count := hn.symm.trans (Nat.zero_add _).symm
      reads := fun j d hd => (nextPulse_packet rfl).trans
        (packetPulse_modulate hvalid (by simpa [pktBuffer] using hd)) }
    (List.cons_ne_nil _ _) rfl rfl rfl
  rw [hrun]
  simp [answer, startTx, packetEmits, hidle, hn]

/-- Settles O56: REPLAY starts a transmission whose pulses are the elements of the stored sequence. -/
theorem replayEmitsTheSequenceVerbatim : Obligations.ReplayEmitsTheSequenceVerbatim := by
  intro s seq rest hidle hfree hne hpos hcap hturns
  have hstart := (step_input hturns).trans
    (exec_replay_ok (s := { s with turns := handshakes _ ++ rest }) hidle (sequenceLegal_iff.2 ⟨hne, hcap, hpos⟩))
  have hrun := runSteps_transmission (ds := seq) hstart
    { active := rfl
      free := hfree
      count := (Nat.zero_add _).symm
      reads := fun j d hd => (nextPulse_raw rfl).trans (rawPulse_next.2 (by simpa using hd)) }
    hne rfl rfl rfl
  rw [hrun]
  simp [answer, startTx, hidle]

/-! ### The Emits of one step (41_bit_modulator.md R126 to R128) -/

/-- The history grows by events none of which is an Emit. -/
def EmitsNothing (s t : State) : Prop :=
  ∃ es, t.hist = s.hist ++ es ∧ ∀ lvl d, .emit lvl d ∉ es

/-- The history grows by one Emit, at the toggled level and with nothing outstanding before it. -/
structure EmitsOnePulse (s t : State) (d : Nat) : Prop where
  positive : 0 < d
  free : s.txPending = false
  pending : t.txPending = true
  level : t.txLevel = toggle s.txLevel
  idx : t.txIdx = s.txIdx + 1
  hist : t.hist = s.hist ++ [.emit (toggle s.txLevel) d]

theorem emitsNothing_of_hist {s t : State} (h : t.hist = s.hist) : EmitsNothing s t :=
  ⟨[], by rw [h, List.append_nil], by simp⟩

theorem EmitsNothing.trans {s t u : State} (h : EmitsNothing s t) (h' : EmitsNothing t u) : EmitsNothing s u := by
  obtain ⟨es, ht, hes⟩ := h
  obtain ⟨fs, hu, hfs⟩ := h'
  exact ⟨es ++ fs, by rw [hu, ht, List.append_assoc],
    fun lvl d => List.not_mem_append (hes lvl d) (hfs lvl d)⟩

/-- A command's answer is no Emit. -/
theorem emitsNothing_answer (c : Instr) (st : Status) (s : State) : EmitsNothing s (answer c st s) :=
  ⟨[.command c st], rfl, by simp⟩

theorem cancelEvents_emit (s : State) (lvl : Level) (d : Nat) : .emit lvl d ∉ cancelEvents s := by
  unfold cancelEvents
  split <;> simp

theorem emitsNothing_resetBlock (s : State) : EmitsNothing s (resetBlock s) :=
  ⟨cancelEvents s, rfl, cancelEvents_emit s⟩

theorem edgeOp_emitsNothing {s t : State} {ts : Nat} {lvl : Level} (h : edgeOp ts lvl s = .next t) :
    EmitsNothing s t := by
  obtain ⟨_, rfl⟩ | ⟨_, _, _, rfl⟩ | ⟨_, _, _, rfl⟩ | ⟨_, _, _, _, rfl⟩ | ⟨_, _, _, _, rfl⟩ := edgeOp_next h <;>
    exact emitsNothing_of_hist rfl

theorem idleCheckOp_emitsNothing {s t : State} {now : Nat} (h : idleCheckOp now s = .next t) : EmitsNothing s t := by
  obtain ⟨_, ⟨_, rfl⟩ | ⟨_, _, rfl⟩ | ⟨_, _, rfl⟩⟩ := idleCheckOp_next h
  · exact emitsNothing_of_hist rfl
  · exact emitsNothing_of_hist rfl
  · exact ⟨_, handOff_hist s, by simp⟩

theorem edgeDetect_emitsNothing {s t : State} {now : Nat} {lvl : Level} (h : edgeDetect now lvl s = .next t) :
    EmitsNothing s t := by
  obtain ⟨_, rfl⟩ | ⟨_, _, rfl⟩ | ⟨_, _, h⟩ := edgeDetect_next h
  · exact emitsNothing_of_hist rfl
  · exact emitsNothing_of_hist rfl
  · exact edgeOp_emitsNothing (s := { s with edLevel := lvl }) h

/-- No operation that has a code puts out an Emit: that is the block's own step. -/
theorem exec_emitsNothing {i : Instr} {x : Input} {s t : State} (hcode : encode i = some x)
    (h : exec i s = .next t) : EmitsNothing s t := by
  cases i with
  | encode p =>
    obtain ⟨st, rfl⟩ | ⟨_, _, rfl⟩ := execEncode_next h
    · exact emitsNothing_answer _ st s
    · exact ⟨_, rfl, by simp⟩
  | modulate =>
    obtain ⟨st, rfl⟩ | ⟨_, _, rfl⟩ := execModulate_next h
    · exact emitsNothing_answer _ st s
    · exact emitsNothing_answer _ _ (startTx _ _ s)
  | replay q =>
    obtain ⟨st, rfl⟩ | ⟨_, _, rfl⟩ := execReplay_next h
    · exact emitsNothing_answer _ st s
    · exact ⟨_, rfl, by simp⟩
  | cancel =>
    obtain ⟨_, rfl⟩ | ⟨_, rfl⟩ := execCancel_next h
    · have habandon : EmitsNothing s (abandonTx s) := ⟨cancelEvents s, rfl, cancelEvents_emit s⟩
      exact habandon.trans (emitsNothing_answer _ _ _)
    · exact emitsNothing_answer _ _ s
  | resAck =>
    cases h
    exact ⟨_, rfl, by simp⟩
  | reset =>
    cases h
    exact (emitsNothing_resetBlock s).trans (emitsNothing_answer _ _ _)
  | edge ts lvl => exact edgeOp_emitsNothing h
  | idleCheck now => exact idleCheckOp_emitsNothing h
  | sample now lvl =>
    obtain ⟨u, hcheck, hdetect⟩ := andThen_next.1 h
    exact (idleCheckOp_emitsNothing hcheck).trans (edgeDetect_emitsNothing hdetect)
  | emitDone =>
    obtain ⟨_, rfl⟩ | ⟨_, _, rfl⟩ | ⟨_, _, rfl⟩ := execEmitDone_next h
    · exact emitsNothing_of_hist rfl
    · exact ⟨_, rfl, by simp⟩
    · exact emitsNothing_of_hist rfl
  | emitFail =>
    obtain ⟨_, rfl⟩ | ⟨_, rfl⟩ := execEmitFail_next h
    · exact emitsNothing_of_hist rfl
    · exact ⟨_, rfl, by simp⟩
  | cmdReserved op =>
    cases h
    exact emitsNothing_answer _ _ s
  | evtReserved ev =>
    cases h
    exact emitsNothing_of_hist rfl
  | txStep | demodulate | decode | emit | packet | start | bit0 | bit1 => cases hcode

/-- No pulse has the duration 0 (10_state.md R25, 30_encoding.md R86). -/
theorem nextPulse_pos {s : State} {d : Nat} (hraw : ∀ e ∈ s.rawSeq, 0 < e) (h : nextPulse s = .next d) : 0 < d := by
  cases hsrc : s.txSrc with
  | packet =>
    rw [nextPulse_packet hsrc] at h
    obtain ⟨_, rfl⟩ | ⟨_, _, b, _, rfl⟩ := packetPulse_next.1 h
    · exact tPre_pos s.cfg
    · exact pulseDur_pos s.cfg _
  | raw =>
    rw [nextPulse_raw hsrc] at h
    exact hraw d (List.mem_of_getElem? (rawPulse_next.1 h))

theorem ownStep_emits {s t : State} (hraw : ∀ e ∈ s.rawSeq, 0 < e) (h : ownStep s = .next t) :
    EmitsNothing s t ∨ ∃ d, EmitsOnePulse s t d := by
  cases hr : txReady s with
  | false =>
    rw [ownStep_of_not_ready hr] at h
    cases h
    exact .inl (emitsNothing_of_hist rfl)
  | true =>
    rw [ownStep_of_ready hr] at h
    obtain ⟨_, d, hpulse, rfl⟩ := execTxStep_next.1 h
    obtain ⟨_, hfree, _⟩ := txReady_iff.1 hr
    exact .inr ⟨d, nextPulse_pos hraw hpulse, hfree, rfl, rfl, rfl, rfl⟩

/-- Everything a step can put out by way of Emits. -/
theorem step_emits {s t : State} (hraw : ∀ e ∈ s.rawSeq, 0 < e) (h : step s = .next t) :
    EmitsNothing s t ∨ ∃ d, EmitsOnePulse s t d := by
  obtain ⟨_, hstep⟩ | ⟨rest, _, hstep⟩ | ⟨x, rest, _, hstep⟩ | ⟨rest, _, hstep⟩ | ⟨ts, lvl, rest, _, hstep⟩ :=
    step_cases s
  · exact ownStep_emits hraw (hstep.symm.trans h)
  · obtain hnone | ⟨d, hone⟩ := ownStep_emits (s := { s with turns := rest }) hraw (hstep.symm.trans h)
    · exact .inl hnone
    · exact .inr ⟨d, { hone with }⟩
  · obtain ⟨y, hcode⟩ := encode_decode_isSome x
    exact .inl (exec_emitsNothing (s := { s with turns := rest }) hcode (hstep.symm.trans h))
  · cases hstep.symm.trans h
    exact .inl (emitsNothing_resetBlock _)
  · have hcheck : idleCheckOp ts { s with turns := .input (.event 0x1#3 ts lvl) :: rest } = .next t := hstep.symm.trans h
    have hnone := idleCheckOp_emitsNothing hcheck
    exact .inl hnone

/-- Settles O54: a step emits nothing or one pulse, and the history fixes what it took in. -/
theorem oneEmitAtATime : Obligations.OneEmitAtATime := by
  intro s t es lvl d hinv h hhist hmem
  obtain ⟨fs, hfs, hnone⟩ | ⟨e, hone⟩ := step_emits hinv.buffers.raw_positive h
  · obtain rfl : es = fs := List.append_cancel_left (hhist.symm.trans hfs)
    exact absurd hmem (hnone lvl d)
  · obtain rfl : es = [.emit (toggle s.txLevel) e] := List.append_cancel_left (hhist.symm.trans hone.hist)
    obtain ⟨rfl, rfl⟩ : lvl = toggle s.txLevel ∧ d = e := by simpa using hmem
    exact ⟨rfl, hone.positive, hone.free, hone.pending, rfl, hone.level, hone.idx⟩

/-! ### The demodulator (41_bit_modulator.md R138 to R145) -/

/-- Settles O22: both denominators, 2 and PRE_UNITS, are positive and are multiplied out. -/
theorem thresholdIsScaledMidpoint : Obligations.ThresholdIsScaledMidpoint := by
  intro c pre d
  have hpre : (0 : ℚ) < c.preUnits := Nat.cast_pos.2 c.preUnits_pos
  rw [sampleBit_eq_false, lt_div_iff₀ two_pos, ← mul_div_assoc, lt_div_iff₀ hpre, Nat.mul_comm 2 d]
  norm_cast

/-- Settles O23: the test for 0 is strict. -/
theorem tiedSampleIsOne : Obligations.TiedSampleIsOne := by
  intro c pre d htie
  rw [← Bool.not_eq_false, sampleBit_eq_false, htie]
  exact Nat.lt_irrefl _

theorem demodulate_eq_some {c : Cfg} {pre : Nat} {samples : List Nat} {bytes : List Byte} :
    demodulate c pre samples = some bytes ↔ samples.length % 8 = 0 ∧ demodBytes c pre samples = bytes := by
  simp [demodulate]

/-- Bit `7 - k` of byte `j` is the bit of sample `8j + k` (R142). -/
theorem demodBytes_getLsbD {c : Cfg} {pre : Nat} {samples : List Nat} {j k d : Nat} {b : Byte} (hk : k ≤ 7)
    (hb : (demodBytes c pre samples)[j]? = some b) (hd : samples[8 * j + k]? = some d) :
    b.getLsbD (7 - k) = sampleBit c pre d := by
  induction samples using demodBytes.induct generalizing j with
  | case1 d0 d1 d2 d3 d4 d5 d6 d7 rest ih =>
    rw [demodBytes] at hb
    cases j with
    | zero =>
      obtain rfl := Option.some.inj hb
      have hbit := byteOfBits_getLsbD (sampleBit c pre d0) (sampleBit c pre d1) (sampleBit c pre d2)
        (sampleBit c pre d3) (sampleBit c pre d4) (sampleBit c pre d5) (sampleBit c pre d6) (sampleBit c pre d7) k hk
      have hsample : [d0, d1, d2, d3, d4, d5, d6, d7][k]? = some d := by
        rw [← hd, Nat.mul_zero, Nat.zero_add]
        exact (List.getElem?_append_left (l₂ := rest) (by simp; omega)).symm
      have hmap : ([d0, d1, d2, d3, d4, d5, d6, d7].map (sampleBit c pre))[k]? = some (sampleBit c pre d) := by
        rw [List.getElem?_map, hsample, Option.map_some]
      exact Option.some.inj (hbit.symm.trans hmap)
    | succ j =>
      rw [show 8 * (j + 1) + k = 8 * j + k + 8 by omega] at hd
      exact ih hb hd
  | case2 samples hshort =>
    rw [demodBytes] at hb
    · cases hb
    · exact hshort

/-- Settles O24: when bytes are given they are those of `demodBytes`. -/
theorem demodulatedBits : Obligations.DemodulatedBits := by
  intro c pre samples bytes h
  obtain ⟨_, rfl⟩ := demodulate_eq_some.1 h
  exact ⟨demodBytes_length c pre samples, fun j k b d hk hb hd => demodBytes_getLsbD hk hb hd⟩

theorem exec_demodulate_malformed {s : State} {pre : Nat} {samples : List Nat}
    (h : demodulate s.cfg pre samples = none) :
    exec (.demodulate (pre :: samples)) s = .next { s with fnOut := .malformed } := by
  show execDemodulate (pre :: samples) s = _
  rw [execDemodulate, h]

theorem exec_demodulate_bytes {s : State} {pre : Nat} {samples : List Nat} {b : List Byte}
    (h : demodulate s.cfg pre samples = some b) :
    exec (.demodulate (pre :: samples)) s = .next { s with fnOut := .bytes b } := by
  show execDemodulate (pre :: samples) s = _
  rw [execDemodulate, h]

/-- Settles O25: DEMODULATE hands on what `demodulate` gives, and which of the two that is the count decides. -/
theorem demodulateResult : Obligations.DemodulateResult := fun _ _ _ =>
  ⟨fun hcount => exec_demodulate_malformed (if_neg hcount), fun hcount => exec_demodulate_bytes (if_pos hcount)⟩

/-- Settles O26: the sequence is whole bytes, and each pulse decodes to its bit. -/
theorem demodulateInvertsModulate : Obligations.DemodulateInvertsModulate := by
  refine fun c p hsl => ⟨tPre c, (packetBits p).map (pulseDur c), rfl, demodulate_eq_some.2 ⟨?_, ?_⟩⟩
  · rw [List.length_map, packetBits_length, Nat.mul_mod_right]
  · exact demodBytes_flatMap c (tPre c) (pulseDur c) (sampleBit_pulseDur c hsl) (wireBytes p)

end Sys2Proof.Machine
end

section
/-! PROOFS. The family 42_receiver_fsm.md: what each receive event does in each of its cases, the runs of events that
change nothing, the bound on stored durations, and the invariants of R171 with those of the other registers. -/

namespace Sys2Proof.Machine

/-! ### EDGE (42_receiver_fsm.md R152) -/

/-- The noise filter (R156). -/
theorem edgeOp_noise {s : State} {ts : Nat} (hbusy : s.rxState ≠ .idle) (hts : s.rxLastTs ≤ ts)
    (hgap : ts - s.rxLastTs ≤ s.cfg.rxRejectPeriod) (lvl : Level) : edgeOp ts lvl s = .next s := by
  rw [edgeOp, if_pos (timeLegal_iff.2 (.inr hts))]
  cases hs : s.rxState with
  | idle => exact absurd hs hbusy
  | awaitingPreamble => exact if_pos hgap
  | receiving => exact if_pos hgap

/-- A sample for which the buffer has no room (R158). -/
theorem edgeOp_overflow {s : State} {d : Nat} (h : s.rxState = .receiving) (hd : s.cfg.rxRejectPeriod < d)
    (hfull : fitsCap s.cfg.rxCap (s.rxSamples.length + 1) = false) (lvl : Level) :
    edgeOp (s.rxLastTs + d) lvl s = .next (acceptEdge (s.rxLastTs + d) lvl { s with rxOverflow := true }) := by
  simp [edgeOp, timeLegal, appendSample, h, hd, hfull]

/-- Settles O31: one equation per arm; an accepted edge lies its gap after the last one. -/
theorem edgeResult : Obligations.EdgeResult := by
  refine fun s ts lvl => ⟨fun hbusy hback => if_neg (timeLegal_backwards hbusy hback),
    fun hidle => edgeOp_idle hidle ts lvl, fun hbusy hts hgap => edgeOp_noise hbusy hts hgap lvl,
    fun hs hts hgap => ?_, fun hs hts hgap hroom => ?_, fun cap hs hts hgap hcap hfull => ?_⟩
  · have haccept := edgeOp_preamble hs hgap lvl
    rwa [Nat.add_sub_cancel' hts] at haccept
  · have haccept := edgeOp_sample hs hgap (fitsCap_iff.2 hroom) lvl
    rwa [Nat.add_sub_cancel' hts] at haccept
  · have hnoRoom : fitsCap s.cfg.rxCap (s.rxSamples.length + 1) = false :=
      Bool.eq_false_iff.2 fun hfits => Nat.not_le_of_lt (Nat.lt_succ_of_le hfull) (fitsCap_iff.1 hfits cap hcap)
    have haccept := edgeOp_overflow hs hgap hnoRoom lvl
    rwa [Nat.add_sub_cancel' hts] at haccept

/-! ### IDLE_CHECK (42_receiver_fsm.md R160) -/

/-- The timer is inactive in `Idle` (R166). -/
theorem idleCheckOp_idle {s : State} (h : s.rxState = .idle) (now : Nat) : idleCheckOp now s = .next s := by
  simp [idleCheckOp, timeLegal, timedOut, h]

/-- The timeout is strict (R161). -/
theorem idleCheckOp_early {s : State} {now : Nat} (hts : s.rxLastTs ≤ now)
    (hgap : now - s.rxLastTs ≤ s.cfg.rxEndPeriod) : idleCheckOp now s = .next s := by
  have hearly : timedOut now s ≠ true := fun hout => Nat.not_le_of_lt (timedOut_iff.1 hout).2 hgap
  rw [idleCheckOp, if_pos (timeLegal_iff.2 (.inr hts)), if_neg hearly]

/-- The silent discard (R164). -/
theorem completeFrame_discarded {s : State} (h : handOffCondition s ≠ true) : completeFrame s = frameReset s := by
  rw [completeFrame, if_neg h]

/-- Settles O33: each of the three faults of the frame breaks a part of the hand-off condition. -/
theorem idleCheckWithoutHandOff : Obligations.IdleCheckWithoutHandOff := by
  refine fun s now => ⟨fun hidle => idleCheckOp_idle hidle now, fun _ hts hgap => idleCheckOp_early hts hgap,
    fun hbusy hts hgap hfaulty => ?_⟩
  have hdiscard : handOffCondition s ≠ true := fun hhand => by
    obtain ⟨hmin, hpre, hoverflow⟩ := handOffCondition_iff.1 hhand
    obtain hshort | hnoise | hover := hfaulty
    · exact Nat.not_le_of_lt hshort hmin
    · exact Nat.not_le_of_lt hpre hnoise
    · exact absurd (hoverflow.symm.trans hover) nofun
  exact (idleCheckOp_timedOut hbusy (by omega)).trans (congrArg Host.Outcome.next (completeFrame_discarded hdiscard))

/-- Settles O34: the frame is handed over; `recordFrame` and `frameReset` write the fields the statement lists. -/
theorem handOffOfDecodedFrame : Obligations.HandOffOfDecodedFrame := by
  intro s now sig len pay hbusy hts hgap hmin hpre hoverflow hdec
  have hhand : handOffCondition s = true := handOffCondition_iff.2 ⟨hmin, hpre, hoverflow⟩
  exact (idleCheckOp_timedOut hbusy (by omega)).trans (congrArg Host.Outcome.next (completeFrame_decoded hhand hdec))

theorem completeFrame_idle (s : State) : (completeFrame s).rxState = .idle := rfl

/-- A completed frame puts out its one `FrameOut` or nothing (R163, R164). -/
theorem completeFrame_hist (s : State) :
    (completeFrame s).hist = s.hist ∨
      ∃ r, (completeFrame s).hist = s.hist ++ [.frameOut r s.rxPre s.rxSamples s.rxLastLevel] := by
  rw [completeFrame, frameReset_hist]
  split
  · exact .inr ⟨_, handOff_hist s⟩
  · exact .inl rfl

/-! ### Events that change nothing (42_receiver_fsm.md R156, R166) -/

theorem step_turn {s : State} {a : Turn} {rest : List Turn} (h : s.turns = a :: rest) :
    step s = takeTurn a { s with turns := rest } := by
  simp [step, h]

/-- Turns that each leave the state as it is leave it so however many they are. -/
theorem runSteps_unchanged {s : State} {rest : List Turn} (quiet : List Turn)
    (hsame : ∀ a ∈ quiet, ∀ later, takeTurn a { s with turns := later } = .next { s with turns := later })
    (hturns : s.turns = quiet ++ rest) : runSteps quiet.length s = .next { s with turns := rest } := by
  induction quiet generalizing s with
  | nil =>
    obtain rfl : s.turns = rest := hturns
    rfl
  | cons a quiet ih =>
    obtain ⟨ha, hquiet⟩ := List.forall_mem_cons.1 hsame
    rw [List.length_cons, runSteps_succ _ ((step_turn hturns).trans (ha _))]
    exact ih hquiet rfl

/-- Settles O32: the floor is measured from the last accepted edge, which no noise edge moves. -/
theorem noiseBurstChangesNothing : Obligations.NoiseBurstChangesNothing := by
  intro s noise rest hbusy hnoise hturns
  rw [← List.length_map (f := edgeTurn)]
  refine runSteps_unchanged (noise.map edgeTurn) (List.forall_mem_map.2 fun e he later => ?_) hturns
  obtain ⟨hts, hgap⟩ := hnoise e he
  exact edgeOp_noise (s := { s with turns := later }) hbusy hts hgap e.2

theorem runSteps_idleTurns {s : State} {rest : List Turn} (nows : List Nat) (hidle : s.rxState = .idle)
    (hturns : s.turns = nows.map idleTurn ++ rest) : runSteps nows.length s = .next { s with turns := rest } := by
  rw [← List.length_map (f := idleTurn)]
  exact runSteps_unchanged (nows.map idleTurn)
    (List.forall_mem_map.2 fun now _ later => idleCheckOp_idle (s := { s with turns := later }) hidle now) hturns

/-- Settles O36: the first check leaves the receiver in `Idle`, where a check does nothing. -/
theorem frameCompletesExactlyOnce : Obligations.FrameCompletesExactlyOnce := by
  intro s now later rest hbusy hts hgap hturns
  have hcheck : idleCheckOp now { s with turns := later.map idleTurn ++ rest } = .next (completeFrame _) :=
    idleCheckOp_timedOut hbusy (by show s.rxLastTs + s.cfg.rxEndPeriod < now; omega)
  have hfirst := runSteps_succ 0 ((step_idleTurn hturns).trans hcheck)
  obtain ⟨_, _, _, _, hrest, _⟩ := idleCheckOp_frame hcheck
  refine ⟨_, hfirst, completeFrame_idle _, completeFrame_hist _, ?_⟩
  rw [runSteps_add 1 _ hfirst]
  exact runSteps_idleTurns later (completeFrame_idle _) hrest

/-! ### SAMPLE (42_receiver_fsm.md R168) -/

theorem edgeDetect_first {s : State} (h : s.edValid = false) (now : Nat) (lvl : Level) :
    edgeDetect now lvl s = .next { s with edValid := true, edLevel := lvl } := by
  simp [edgeDetect, h]

theorem edgeDetect_steady {s : State} {lvl : Level} (h : s.edValid = true) (hsame : lvl = s.edLevel) (now : Nat) :
    edgeDetect now lvl s = .next s :=
  (if_pos h).trans (if_pos hsame)

theorem edgeDetect_changed {s : State} {lvl : Level} (h : s.edValid = true) (hdiff : lvl ≠ s.edLevel) (now : Nat) :
    edgeDetect now lvl s = edgeOp now lvl { s with edLevel := lvl } :=
  (if_pos h).trans (if_neg hdiff)

theorem exec_sample_of_idleCheck {s t : State} {now : Nat} (h : idleCheckOp now s = .next t) (lvl : Level) :
    exec (.sample now lvl) s = edgeDetect now lvl t := by
  show andThen (idleCheckOp now s) (edgeDetect now lvl) = _
  rw [h, andThen]

/-- Settles O37: the idle check leaves the edge detector alone, so `s` says what the detector of `t` does. -/
theorem sampleResult : Obligations.SampleResult := by
  intro s t now lvl hcheck
  obtain ⟨_, hvalid, hlevel, _⟩ := idleCheckOp_frame hcheck
  rw [exec_sample_of_idleCheck hcheck, ← hvalid, ← hlevel]
  exact ⟨fun h => edgeDetect_first h now lvl, fun h hsame => edgeDetect_steady h hsame now,
    fun h hdiff => edgeDetect_changed h hdiff now⟩

/-- After an idle check the clock still does not run backwards, and no timeout is left to be taken. -/
theorem idleCheckOp_settles {s t : State} {now : Nat} (h : idleCheckOp now s = .next t) :
    timeLegal t now = true ∧ timedOut now t = false := by
  obtain ⟨hlegal, ⟨hout, rfl⟩ | ⟨_, _, rfl⟩ | ⟨_, _, rfl⟩⟩ := idleCheckOp_next h
  · exact ⟨hlegal, hout⟩
  · exact ⟨rfl, rfl⟩
  · exact ⟨rfl, rfl⟩

theorem edgeDetect_completes {s : State} {now : Nat} (h : timeLegal s now = true) (lvl : Level) :
    ∃ t, edgeDetect now lvl s = .next t := by
  cases hvalid : s.edValid with
  | false => exact ⟨_, edgeDetect_first hvalid now lvl⟩
  | true =>
    by_cases hsame : lvl = s.edLevel
    · exact ⟨_, edgeDetect_steady hvalid hsame now⟩
    · rw [edgeDetect_changed hvalid hsame]
      exact edgeOp_legal.2 h

theorem exec_sample_completes {s : State} {now : Nat} (h : timeLegal s now = true) (lvl : Level) :
    ∃ t, exec (.sample now lvl) s = .next t := by
  obtain ⟨u, hcheck⟩ := idleCheckOp_legal.2 h
  rw [exec_sample_of_idleCheck hcheck]
  exact edgeDetect_completes (idleCheckOp_settles hcheck).1 lvl

/-- EDGE is no operation of the edge detector. -/
theorem edgeOp_detector {s t : State} {ts : Nat} {lvl : Level} (h : edgeOp ts lvl s = .next t) :
    t.edValid = s.edValid ∧ t.edLevel = s.edLevel := by
  obtain ⟨_, rfl⟩ | ⟨_, _, _, rfl⟩ | ⟨_, _, _, rfl⟩ | ⟨_, _, _, _, rfl⟩ | ⟨_, _, _, _, rfl⟩ := edgeOp_next h <;>
    exact ⟨rfl, rfl⟩

/-- The edge detector holds the sampled level afterwards. -/
theorem edgeDetect_detector {s t : State} {now : Nat} {lvl : Level} (h : edgeDetect now lvl s = .next t) :
    t.edValid = true ∧ t.edLevel = lvl := by
  obtain ⟨_, rfl⟩ | ⟨hvalid, hsame, rfl⟩ | ⟨hvalid, _, hedge⟩ := edgeDetect_next h
  · exact ⟨rfl, rfl⟩
  · exact ⟨hvalid, hsame.symm⟩
  · obtain ⟨hv, hl⟩ := edgeOp_detector hedge
    exact ⟨hv.trans hvalid, hl⟩

/-- Settles O38: the idle check completes and leaves the time legal, so the edge detector completes too. -/
theorem sampleCompletes : Obligations.SampleCompletes := by
  intro s now lvl hlegal
  obtain ⟨t, ht⟩ := exec_sample_completes (timeLegal_iff.2 hlegal) lvl
  obtain ⟨u, _, hdetect⟩ := andThen_next.1 ht
  obtain ⟨hvalid, hlevel⟩ := edgeDetect_detector hdetect
  obtain ⟨_, hreceive⟩ := pipelinesDoNotTouchEachOther _ s t ht
  obtain ⟨htransmit, _⟩ := hreceive rfl
  exact ⟨t, ht, hvalid, hlevel, htransmit⟩

/-! ### Stored durations within the idle timeout (42_receiver_fsm.md R169, R171 (f)) -/

theorem withinEndPeriod_frameReset (s : State) : WithinEndPeriod (frameReset s) :=
  ⟨Nat.zero_le _, by simp⟩

theorem idleCheckOp_withinEndPeriod {s t : State} {now : Nat} (hs : WithinEndPeriod s)
    (h : idleCheckOp now s = .next t) : WithinEndPeriod t := by
  obtain ⟨_, ⟨_, rfl⟩ | ⟨_, _, rfl⟩ | ⟨_, _, rfl⟩⟩ := idleCheckOp_next h
  · exact hs
  · exact withinEndPeriod_frameReset s
  · exact withinEndPeriod_frameReset (handOff s)

theorem gap_le_of_not_timedOut {s : State} {now : Nat} (hbusy : s.rxState ≠ .idle) (h : timedOut now s = false) :
    now - s.rxLastTs ≤ s.cfg.rxEndPeriod :=
  Nat.not_lt.1 fun hgap => absurd (h.symm.trans (timedOut_iff.2 ⟨hbusy, hgap⟩)) nofun

/-- An edge before the timeout stores a duration within it. -/
theorem edgeOp_withinEndPeriod {s t : State} {ts : Nat} {lvl : Level} (hs : WithinEndPeriod s)
    (hout : timedOut ts s = false) (h : edgeOp ts lvl s = .next t) : WithinEndPeriod t := by
  obtain ⟨hpre, hsamples⟩ := hs
  obtain ⟨_, rfl⟩ | ⟨_, _, _, rfl⟩ | ⟨hstate, _, _, rfl⟩ | ⟨hstate, _, _, _, rfl⟩ | ⟨_, _, _, _, rfl⟩ := edgeOp_next h
  · exact ⟨hpre, hsamples⟩
  · exact ⟨hpre, hsamples⟩
  · exact ⟨gap_le_of_not_timedOut (by simp [hstate]) hout, hsamples⟩
  · have hgap := gap_le_of_not_timedOut (by simp [hstate]) hout
    exact ⟨hpre, List.forall_mem_append.2 ⟨hsamples, List.forall_mem_singleton.2 hgap⟩⟩
  · exact ⟨hpre, hsamples⟩

theorem edgeDetect_withinEndPeriod {s t : State} {now : Nat} {lvl : Level} (hs : WithinEndPeriod s)
    (hout : timedOut now s = false) (h : edgeDetect now lvl s = .next t) : WithinEndPeriod t := by
  obtain ⟨_, rfl⟩ | ⟨_, _, rfl⟩ | ⟨_, _, hedge⟩ := edgeDetect_next h
  · exact hs
  · exact hs
  · exact edgeOp_withinEndPeriod (s := { s with edLevel := lvl }) hs hout hedge

/-- An idle check and then the edge of the same time (R169). -/
theorem checkThenEdge_withinEndPeriod {s t : State} {now : Nat} {lvl : Level} {rest : List Turn}
    (hs : WithinEndPeriod s) (hstep : step s = idleCheckOp now { s with turns := edgeTurn (now, lvl) :: rest })
    (hrun : runSteps 2 s = .next t) : WithinEndPeriod t := by
  obtain ⟨u, hu, hrun⟩ := runSteps_succ_next.1 hrun
  obtain ⟨v, hv, hend⟩ := runSteps_succ_next.1 hrun
  obtain rfl : v = t := Host.Outcome.next.inj hend
  have hcheck := hstep.symm.trans hu
  obtain ⟨_, _, _, _, hturns, _⟩ := idleCheckOp_frame hcheck
  have hedge := (step_edgeTurn hturns).symm.trans hv
  have hbound : WithinEndPeriod u :=
    idleCheckOp_withinEndPeriod (s := { s with turns := edgeTurn (now, lvl) :: rest }) hs hcheck
  exact edgeOp_withinEndPeriod (s := { u with turns := rest }) hbound (idleCheckOp_settles hcheck).2 hedge

/-- Settles O39: in each of the three forms the edge comes after an idle check of its own time. -/
theorem sampledDurationsWithinEndPeriod : Obligations.SampledDurationsWithinEndPeriod := by
  refine fun s t now lvl hs => ⟨fun h => ?_, fun rest hturns hrun => ?_, fun rest hturns hrun => ?_⟩
  · obtain ⟨u, hcheck, hdetect⟩ := andThen_next.1 h
    exact edgeDetect_withinEndPeriod (idleCheckOp_withinEndPeriod hs hcheck) (idleCheckOp_settles hcheck).2 hdetect
  · exact checkThenEdge_withinEndPeriod hs (step_edgeWithCheck hturns) hrun
  · exact checkThenEdge_withinEndPeriod hs (step_idleTurn hturns) hrun

/-! ### The invariants read one side of the state each (20_memory.md R64) -/

theorem bufferInv_transmitSide {k : Bool} {s : State} : BufferInv (transmitSide k s) ↔ BufferInv s :=
  ⟨fun h => { h with }, fun h => { h with }⟩

theorem transmitInv_transmitSide {k : Bool} {s : State} : TransmitInv (transmitSide k s) ↔ TransmitInv s :=
  ⟨fun h => { h with }, fun h => { h with }⟩

theorem receiveInv_receiveSide {s : State} : ReceiveInv (receiveSide s) ↔ ReceiveInv s :=
  ⟨fun h => { h with }, fun h => { h with }⟩

theorem resultInv_receiveSide {s : State} :
    ResultInv s ↔ ResultInv (receiveSide s) ∧ commandStatus s.cmdStatus = true :=
  ⟨fun h => ⟨{ h with cmd_status := rfl }, h.cmd_status⟩, fun ⟨h, hstatus⟩ => { h with cmd_status := hstatus }⟩

theorem Inv.withTurns {s : State} (h : Inv s) (rest : List Turn) : Inv { s with turns := rest } :=
  ⟨{ h.buffers with }, { h.transmit with }, { h.receive with }, { h.results with }⟩

theorem inv_answer {s : State} (h : Inv s) (c : Instr) {st : Status} (hst : commandStatus st = true) :
    Inv (answer c st s) :=
  ⟨{ h.buffers with }, { h.transmit with }, { h.receive with }, { h.results with cmd_status := hst }⟩

theorem inv_resetBlock (s : State) : Inv (resetBlock s) :=
  have h := inv_resetFor s.cfg
  ⟨{ h.buffers with }, { h.transmit with }, { h.receive with }, { h.results with }⟩

/-! ### The buffers and the sequencer (10_state.md R23 to R29) -/

/-- Outside `TxActive` nothing is outstanding and the level is the idle one; the rest is about `TxActive`. -/
theorem transmitInv_of_quiet {s : State} (hstate : s.txState ≠ .active) (hfree : s.txPending = false)
    (hlevel : s.txLevel = s.cfg.idleLevel) : TransmitInv s where
  pending_active hpend := absurd (hfree.symm.trans hpend) nofun
  idx_le hactive := absurd hactive hstate
  count_pos hactive := absurd hactive hstate
  ready_lt hactive := absurd hactive hstate
  pending_idx hpend := absurd (hfree.symm.trans hpend) nofun
  packet_source hactive := absurd hactive hstate
  raw_source hactive := absurd hactive hstate
  level_quiet _ := hlevel
  level_active hactive := absurd hactive hstate

theorem TransmitInv.free_of_quiet {s : State} (h : TransmitInv s) (hstate : s.txState ≠ .active) :
    s.txPending = false :=
  Bool.eq_false_iff.2 fun hpend => hstate (h.pending_active hpend)

/-- A transmission starts with at least one pulse to issue, as many as its source holds. -/
theorem transmitInv_startTx {s : State} {src : TxSrc} {n : Nat} (hfree : s.txPending = false) (hn : 0 < n)
    (hpacket : src = .packet → s.pktValid = true ∧ n = 1 + 8 * (6 + s.pktLen.toNat))
    (hraw : src = .raw → n = s.rawSeq.length) : TransmitInv (startTx src n s) where
  pending_active _ := rfl
  idx_le _ := Nat.zero_le n
  count_pos _ := hn
  ready_lt _ _ := hn
  pending_idx hpend := absurd (hfree.symm.trans hpend) nofun
  packet_source _ := hpacket
  raw_source _ := hraw
  level_quiet hstate := absurd rfl hstate
  level_active _ := rfl

theorem bufferInv_storeEncoded {s : State} {p : List Byte} (h : BufferInv s) (hlen : p.length ≤ 255) :
    BufferInv { s with pktSig := (encodePacket s.cfg p).sig, pktLen := (encodePacket s.cfg p).len
                       pktPay := (encodePacket s.cfg p).pay, pktChk := (encodePacket s.cfg p).chk
                       pktValid := true } where
  pkt_sig _ := rfl
  pkt_len _ := (cipher_length _ p).trans (encodePacket_len s.cfg hlen).symm
  raw_positive := h.raw_positive
  raw_fits := h.raw_fits

/-- The packet is not replaced while it is being transmitted (R109). -/
theorem execEncode_inv {s t : State} {p : List Byte} (hs : Inv s) (h : execEncode p s = .next t) :
    BufferInv t ∧ TransmitInv t := by
  obtain ⟨st, rfl⟩ | ⟨hactive, hfit, rfl⟩ := execEncode_next h
  · exact ⟨{ hs.buffers with }, { hs.transmit with }⟩
  · have hstored := bufferInv_storeEncoded hs.buffers ((payloadFits_iff p).1 hfit)
    have hquiet := transmitInv_of_quiet hactive (hs.transmit.free_of_quiet hactive) (hs.transmit.level_quiet hactive)
    exact ⟨{ hstored with }, { hquiet with packet_source := fun hact => absurd hact hactive }⟩

theorem execModulate_inv {s t : State} (hs : Inv s) (h : execModulate s = .next t) : BufferInv t ∧ TransmitInv t := by
  obtain ⟨st, rfl⟩ | ⟨hidle, hvalid, rfl⟩ := execModulate_next h
  · exact ⟨{ hs.buffers with }, { hs.transmit with }⟩
  · have hfree := hs.transmit.free_of_quiet (by simp [hidle])
    have hstarted := transmitInv_startTx (src := .packet) hfree (by omega) (fun _ => ⟨hvalid, rfl⟩) nofun
    exact ⟨{ hs.buffers with }, { hstarted with }⟩

theorem execReplay_inv {s t : State} {q : List Nat} (hs : Inv s) (h : execReplay q s = .next t) :
    BufferInv t ∧ TransmitInv t := by
  obtain ⟨st, rfl⟩ | ⟨hidle, hlegal, rfl⟩ := execReplay_next h
  · exact ⟨{ hs.buffers with }, { hs.transmit with }⟩
  · obtain ⟨hne, hcap, hpos⟩ := sequenceLegal_iff.1 hlegal
    have hfree := hs.transmit.free_of_quiet (by simp [hidle])
    have hstarted := transmitInv_startTx (s := { s with rawSeq := q }) (src := .raw) hfree (List.length_pos_iff.2 hne)
      nofun (fun _ => rfl)
    exact ⟨{ hs.buffers with raw_positive := hpos, raw_fits := fitsCap_iff.2 hcap }, { hstarted with }⟩

theorem execCancel_inv {s t : State} (hs : Inv s) (h : execCancel s = .next t) : BufferInv t ∧ TransmitInv t := by
  obtain ⟨_, rfl⟩ | ⟨_, rfl⟩ := execCancel_next h
  · exact ⟨{ hs.buffers with }, transmitInv_of_quiet nofun rfl rfl⟩
  · exact ⟨{ hs.buffers with }, { hs.transmit with }⟩

theorem level_toggle_ite (i : Nat) (l : Level) :
    toggle (if i % 2 = 0 then l else toggle l) = if (i + 1) % 2 = 0 then l else toggle l := by
  rcases Nat.mod_two_eq_zero_or_one i with h | h
  · simp [h, Nat.succ_mod_two_eq_one_iff.2 h]
  · simp [h, Nat.succ_mod_two_eq_zero_iff.2 h]

/-- One more pulse toggles the level and the parity of the index. -/
theorem transmitInv_pulse {s : State} (hs : TransmitInv s) (hactive : s.txState = .active) (hlt : s.txIdx < s.txCount)
    (d : Nat) : TransmitInv (advanceTx (togglePulse d s)) where
  pending_active _ := hactive
  idx_le _ := hlt
  count_pos := hs.count_pos
  ready_lt _ := nofun
  pending_idx _ := Nat.succ_pos s.txIdx
  packet_source := hs.packet_source
  raw_source := hs.raw_source
  level_quiet hquiet := absurd hactive hquiet
  level_active _ := (congrArg toggle (hs.level_active hactive)).trans (level_toggle_ite s.txIdx s.cfg.idleLevel)

theorem execTxStep_inv {s t : State} (hs : Inv s) (h : execTxStep s = .next t) : BufferInv t ∧ TransmitInv t := by
  obtain ⟨hready, d, _, rfl⟩ := execTxStep_next.1 h
  obtain ⟨hactive, _, hlt⟩ := txReady_iff.1 hready
  exact ⟨{ hs.buffers with }, transmitInv_pulse hs.transmit hactive hlt d⟩

/-- A pulse before the last leaves one to issue. -/
theorem execEmitDone_inv {s t : State} (hs : Inv s) (h : execEmitDone s = .next t) : BufferInv t ∧ TransmitInv t := by
  obtain ⟨_, rfl⟩ | ⟨_, _, rfl⟩ | ⟨_, hmore, rfl⟩ := execEmitDone_next h
  · exact ⟨hs.buffers, hs.transmit⟩
  · exact ⟨{ hs.buffers with }, transmitInv_of_quiet nofun rfl rfl⟩
  · refine ⟨{ hs.buffers with }, { hs.transmit with pending_active := nofun, pending_idx := nofun, ready_lt := ?_ }⟩
    exact fun hactive _ => Nat.lt_of_le_of_ne (hs.transmit.idx_le hactive) hmore

theorem execEmitFail_inv {s t : State} (hs : Inv s) (h : execEmitFail s = .next t) : BufferInv t ∧ TransmitInv t := by
  obtain ⟨_, rfl⟩ | ⟨_, rfl⟩ := execEmitFail_next h
  · exact ⟨hs.buffers, hs.transmit⟩
  · exact ⟨{ hs.buffers with }, transmitInv_of_quiet nofun rfl rfl⟩

/-! ### The command status (10_state.md R39) -/

/-- If the outcome is a next state, its `cmd_status` is one of R39's. -/
def LeavesCommandStatus (r : Result) : Prop :=
  ∀ t, r = .next t → commandStatus t.cmdStatus = true

theorem LeavesCommandStatus.next {t : State} (h : commandStatus t.cmdStatus = true) :
    LeavesCommandStatus (.next t) := by
  rintro _ ⟨⟩
  exact h

theorem LeavesCommandStatus.ite {c : Prop} [Decidable c] {r q : Result} (hr : LeavesCommandStatus r)
    (hq : LeavesCommandStatus q) : LeavesCommandStatus (if c then r else q) := by
  split
  · exact hr
  · exact hq

theorem exec_transmitOp_commandStatus {i : Instr} {s : State} (hs : commandStatus s.cmdStatus = true)
    (hi : transmitOp i = true) : LeavesCommandStatus (exec i s) := by
  cases i with
  | encode | modulate | replay => exact .ite (.next rfl) (.ite (.next rfl) (.next rfl))
  | cancel => exact .ite (.next rfl) (.next rfl)
  | txStep =>
    intro t h
    obtain ⟨_, d, _, rfl⟩ := execTxStep_next.1 h
    exact hs
  | emitDone => exact .ite (.ite (.next hs) (.next hs)) (.next hs)
  | emitFail => exact .ite (.next hs) (.next hs)
  | _ => cases hi

/-! ### The receiver and the result registers (42_receiver_fsm.md R171, 10_state.md R37) -/

theorem receiveInv_frameReset (s : State) : ReceiveInv (frameReset s) where
  idle_fresh _ := ⟨rfl, rfl, rfl⟩
  awaiting_fresh := nofun
  receiving_pre := nofun
  samples_accepted := nofun
  samples_fit := fitsCap_zero s.cfg.rxCap

/-- Each arm of EDGE: what is stored has passed the noise filter, and a sample only when there is room. -/
theorem edgeOp_receiveInv {s t : State} {ts : Nat} {lvl : Level} (hs : ReceiveInv s) (h : edgeOp ts lvl s = .next t) :
    ReceiveInv t := by
  obtain ⟨hidle, rfl⟩ | ⟨_, _, _, rfl⟩ | ⟨_, _, hgap, rfl⟩ | ⟨hstate, _, hgap, hroom, rfl⟩ | ⟨hstate, _, _, _, rfl⟩ :=
    edgeOp_next h
  · obtain ⟨hpre, hsamples, _⟩ := hs.idle_fresh hidle
    exact { hs with idle_fresh := nofun, awaiting_fresh := fun _ => ⟨hpre, hsamples⟩, receiving_pre := nofun }
  · exact hs
  · exact { hs with idle_fresh := nofun, awaiting_fresh := nofun, receiving_pre := fun _ => hgap }
  · exact { hs with
      idle_fresh := fun hidle => absurd (hstate.symm.trans hidle) nofun
      awaiting_fresh := fun hwait => absurd (hstate.symm.trans hwait) nofun
      samples_accepted := List.forall_mem_append.2 ⟨hs.samples_accepted, List.forall_mem_singleton.2 hgap⟩
      samples_fit := (congrArg (fitsCap s.cfg.rxCap) List.length_append).trans hroom }
  · exact { hs with idle_fresh := fun hidle => absurd (hstate.symm.trans hidle) nofun }

theorem idleCheckOp_receiveInv {s t : State} {now : Nat} (hs : ReceiveInv s) (h : idleCheckOp now s = .next t) :
    ReceiveInv t := by
  obtain ⟨_, ⟨_, rfl⟩ | ⟨_, _, rfl⟩ | ⟨_, _, rfl⟩⟩ := idleCheckOp_next h
  · exact hs
  · exact receiveInv_frameReset s
  · exact receiveInv_frameReset (handOff s)

theorem edgeDetect_receiveInv {s t : State} {now : Nat} {lvl : Level} (hs : ReceiveInv s)
    (h : edgeDetect now lvl s = .next t) : ReceiveInv t := by
  obtain ⟨_, rfl⟩ | ⟨_, _, rfl⟩ | ⟨_, _, hedge⟩ := edgeDetect_next h
  · exact { hs with }
  · exact hs
  · exact edgeOp_receiveInv (s := { s with edLevel := lvl }) { hs with } hedge

theorem exec_receiveOp_receiveInv {j : Instr} {s t : State} (hs : ReceiveInv s) (h : exec j s = .next t)
    (hj : receiveOp j = true) : ReceiveInv t := by
  cases j with
  | edge ts lvl => exact edgeOp_receiveInv hs h
  | idleCheck now => exact idleCheckOp_receiveInv hs h
  | sample now lvl =>
    obtain ⟨u, hcheck, hdetect⟩ := andThen_next.1 h
    exact edgeDetect_receiveInv (idleCheckOp_receiveInv hs hcheck) hdetect
  | resAck =>
    cases h
    exact { hs with }
  | _ => cases hj

theorem frameStatus_errorStatus (e : DecodeError) : frameStatus (errorStatus e) = true := by cases e <;> rfl

theorem errorStatus_ne_ok (e : DecodeError) : errorStatus e ≠ .ok := by cases e <;> nofun

/-- A hand-off whose frame decodes stores the configured signature and a payload of the declared length. -/
theorem handOff_resultInv {s : State} (hs : ResultInv s) : ResultInv (handOff s) := by
  obtain ⟨sig, len, pay, hdec, h⟩ | ⟨e, sig, len, pay, _, hpay, h⟩ := handOff_cases s <;> rw [h]
  · obtain ⟨hsig, hlen⟩ := decodeFrame_ok hdec
    exact
      { res_status := rfl
        res_decoded := fun _ _ => ⟨hsig, hlen⟩
        res_bound := hlen.le.trans (Nat.le_of_lt_succ len.isLt)
        cmd_status := hs.cmd_status }
  · exact
      { res_status := frameStatus_errorStatus e
        res_decoded := fun _ hok => absurd hok (errorStatus_ne_ok e)
        res_bound := hpay
        cmd_status := hs.cmd_status }

theorem edgeOp_resultInv {s t : State} {ts : Nat} {lvl : Level} (hs : ResultInv s) (h : edgeOp ts lvl s = .next t) :
    ResultInv t := by
  obtain ⟨_, rfl⟩ | ⟨_, _, _, rfl⟩ | ⟨_, _, _, rfl⟩ | ⟨_, _, _, _, rfl⟩ | ⟨_, _, _, _, rfl⟩ := edgeOp_next h <;>
    exact { hs with }

theorem idleCheckOp_resultInv {s t : State} {now : Nat} (hs : ResultInv s) (h : idleCheckOp now s = .next t) :
    ResultInv t := by
  obtain ⟨_, ⟨_, rfl⟩ | ⟨_, _, rfl⟩ | ⟨_, _, rfl⟩⟩ := idleCheckOp_next h
  · exact hs
  · exact { hs with }
  · exact { handOff_resultInv hs with }

theorem edgeDetect_resultInv {s t : State} {now : Nat} {lvl : Level} (hs : ResultInv s)
    (h : edgeDetect now lvl s = .next t) : ResultInv t := by
  obtain ⟨_, rfl⟩ | ⟨_, _, rfl⟩ | ⟨_, _, hedge⟩ := edgeDetect_next h
  · exact { hs with }
  · exact hs
  · exact edgeOp_resultInv (s := { s with edLevel := lvl }) { hs with } hedge

theorem exec_receiveOp_resultInv {j : Instr} {s t : State} (hs : ResultInv s) (h : exec j s = .next t)
    (hj : receiveOp j = true) : ResultInv t := by
  cases j with
  | edge ts lvl => exact edgeOp_resultInv hs h
  | idleCheck now => exact idleCheckOp_resultInv hs h
  | sample now lvl =>
    obtain ⟨u, hcheck, hdetect⟩ := andThen_next.1 h
    exact edgeDetect_resultInv (idleCheckOp_resultInv hs hcheck) hdetect
  | resAck =>
    cases h
    exact { hs with res_decoded := nofun, cmd_status := rfl }
  | _ => cases hj

/-! ### Every operation that has a code, and TX_STEP, keep the invariants -/

theorem exec_transmitOp_transmitInv {i : Instr} {s t : State} (hs : Inv s) (h : exec i s = .next t)
    (hi : transmitOp i = true) : BufferInv t ∧ TransmitInv t := by
  cases i with
  | encode p => exact execEncode_inv hs h
  | modulate => exact execModulate_inv hs h
  | replay q => exact execReplay_inv hs h
  | cancel => exact execCancel_inv hs h
  | txStep => exact execTxStep_inv hs h
  | emitDone => exact execEmitDone_inv hs h
  | emitFail => exact execEmitFail_inv hs h
  | _ => cases hi

/-- The receive side is as it was, and with it the invariants that read it. -/
theorem exec_transmitOp_inv {i : Instr} {s t : State} (hs : Inv s) (h : exec i s = .next t)
    (hi : transmitOp i = true) : Inv t := by
  have hside := exec_transmitOp_receiveSide h hi
  obtain ⟨hbuffers, htransmit⟩ := exec_transmitOp_transmitInv hs h hi
  obtain ⟨hresults, hstatus⟩ := resultInv_receiveSide.1 hs.results
  exact
    { buffers := hbuffers
      transmit := htransmit
      receive := receiveInv_receiveSide.1 (hside ▸ receiveInv_receiveSide.2 hs.receive)
      results := resultInv_receiveSide.2 ⟨hside ▸ hresults, exec_transmitOp_commandStatus hstatus hi t h⟩ }

/-- The transmit side is as it was, and with it the invariants that read it. -/
theorem exec_receiveOp_inv {j : Instr} {s t : State} (hs : Inv s) (h : exec j s = .next t)
    (hj : receiveOp j = true) : Inv t := by
  have hside : transmitSide false t = transmitSide false s := exec_receiveOp_transmitSide h hj nofun
  exact
    { buffers := bufferInv_transmitSide.1 (hside ▸ bufferInv_transmitSide.2 hs.buffers)
      transmit := transmitInv_transmitSide.1 (hside ▸ transmitInv_transmitSide.2 hs.transmit)
      receive := exec_receiveOp_receiveInv hs.receive h hj
      results := exec_receiveOp_resultInv hs.results h hj }

/-- An operation with a code is one of a pipeline, RESET, or a reserved code. -/
theorem exec_inv {i : Instr} {x : Input} {s t : State} (hcode : encode i = some x) (hs : Inv s)
    (h : exec i s = .next t) : Inv t := by
  cases i with
  | encode | modulate | replay | cancel | emitDone | emitFail => exact exec_transmitOp_inv hs h rfl
  | edge | idleCheck | sample | resAck => exact exec_receiveOp_inv hs h rfl
  | reset =>
    cases h
    exact inv_answer (inv_resetBlock s) _ rfl
  | cmdReserved op =>
    cases h
    exact inv_answer hs _ rfl
  | evtReserved ev =>
    cases h
    exact hs
  | txStep | demodulate | decode | emit | packet | start | bit0 | bit1 => cases hcode

theorem ownStep_inv {s t : State} (hs : Inv s) (h : ownStep s = .next t) : Inv t := by
  cases hready : txReady s with
  | false =>
    cases (ownStep_of_not_ready hready).symm.trans h
    exact hs
  | true => exact exec_transmitOp_inv hs ((ownStep_of_ready hready).symm.trans h) rfl

/-- Settles O46: by the kind of the turn; taking it off the list touches no register. -/
theorem stepKeepsInvariants : Obligations.StepKeepsInvariants := by
  intro s t hs h
  obtain ⟨_, hstep⟩ | ⟨rest, _, hstep⟩ | ⟨x, rest, _, hstep⟩ | ⟨rest, _, hstep⟩ | ⟨ts, lvl, rest, _, hstep⟩ :=
    step_cases s
  · exact ownStep_inv hs (hstep.symm.trans h)
  · exact ownStep_inv (hs.withTurns rest) (hstep.symm.trans h)
  · obtain ⟨y, hcode⟩ := encode_decode_isSome x
    exact exec_inv hcode (hs.withTurns rest) (hstep.symm.trans h)
  · cases hstep.symm.trans h
    exact inv_resetBlock _
  · exact exec_receiveOp_inv (hs.withTurns _) (hstep.symm.trans h) rfl

/-! ### The one stop (42_receiver_fsm.md R151, R172, 60_exceptions.md R212) -/

/-- What TX_STEP reads of the packet buffer is there (10_state.md R27). -/
theorem packetPulse_completes {s : State} (hs : Inv s) (hready : txReady s = true) (hsrc : s.txSrc = .packet) :
    ∃ d, packetPulse s = .next d := by
  obtain ⟨hactive, _, hlt⟩ := txReady_iff.1 hready
  obtain ⟨hvalid, hcount⟩ := hs.transmit.packet_source hactive hsrc
  have hlen := hs.buffers.pkt_len hvalid
  have hbound : s.txIdx < (modulate s.cfg (pktBuffer s)).length := by
    rw [modulate_length]
    show s.txIdx < 1 + 8 * (6 + s.pktPay.length)
    omega
  exact ⟨_, packetPulse_modulate hvalid (List.getElem?_eq_getElem hbound)⟩

theorem rawPulse_completes {s : State} (hs : Inv s) (hready : txReady s = true) (hsrc : s.txSrc = .raw) :
    ∃ d, rawPulse s = .next d := by
  obtain ⟨hactive, _, hlt⟩ := txReady_iff.1 hready
  exact ⟨_, rawPulse_next.2 (List.getElem?_eq_getElem (hs.transmit.raw_source hactive hsrc ▸ hlt))⟩

theorem nextPulse_completes {s : State} (hs : Inv s) (hready : txReady s = true) : ∃ d, nextPulse s = .next d := by
  cases hsrc : s.txSrc with
  | packet =>
    rw [nextPulse_packet hsrc]
    exact packetPulse_completes hs hready hsrc
  | raw =>
    rw [nextPulse_raw hsrc]
    exact rawPulse_completes hs hready hsrc

theorem ownStep_completes {s : State} (hs : Inv s) : ∃ t, ownStep s = .next t := by
  cases hready : txReady s with
  | false => exact ⟨s, ownStep_of_not_ready hready⟩
  | true =>
    obtain ⟨d, hpulse⟩ := nextPulse_completes hs hready
    exact ⟨_, (ownStep_of_ready hready).trans (exec_txStep_ready hready hpulse)⟩

/-- The time operand of an operation (R151). -/
def timeOperand : Instr → Option Nat
  | .edge ts _ => some ts
  | .idleCheck now => some now
  | .sample now _ => some now
  | _ => none

theorem nextTime_input {s : State} {x : Input} {rest : List Turn} (h : s.turns = .input x :: rest) :
    nextTime s = timeOperand (decode x) := by
  rw [nextTime, h]
  dsimp only
  cases decode x <;> rfl

theorem nextTime_edgeWithCheck {s : State} {ts : Nat} {lvl : Level} {rest : List Turn}
    (h : s.turns = .edgeWithCheck ts lvl :: rest) : nextTime s = some ts := by
  rw [nextTime, h]

theorem completes_ite {c : Prop} [Decidable c] {r q : Result} (hr : ∃ t, r = .next t) (hq : ∃ t, q = .next t) :
    ∃ t, (if c then r else q) = .next t := by
  split
  · exact hr
  · exact hq

/-- An operation with a code completes when its time operand, if it has one, is legal. -/
theorem exec_completes {i : Instr} {x : Input} {s : State} (hcode : encode i = some x)
    (hlegal : ∀ now, timeOperand i = some now → timeLegal s now = true) : ∃ t, exec i s = .next t := by
  cases i with
  | edge ts lvl => exact edgeOp_legal.2 (hlegal ts rfl)
  | idleCheck now => exact idleCheckOp_legal.2 (hlegal now rfl)
  | sample now lvl => exact exec_sample_completes (hlegal now rfl) lvl
  | encode | modulate | replay => exact completes_ite ⟨_, rfl⟩ (completes_ite ⟨_, rfl⟩ ⟨_, rfl⟩)
  | emitDone => exact completes_ite (completes_ite ⟨_, rfl⟩ ⟨_, rfl⟩) ⟨_, rfl⟩
  | cancel | emitFail => exact completes_ite ⟨_, rfl⟩ ⟨_, rfl⟩
  | resAck | reset | cmdReserved | evtReserved => exact ⟨_, rfl⟩
  | txStep | demodulate | decode | emit | packet | start | bit0 | bit1 => cases hcode

theorem exec_backwards {i : Instr} {s : State} {now : Nat} (htime : timeOperand i = some now)
    (hillegal : timeLegal s now ≠ true) : exec i s = .refused .timeBackwards := by
  obtain ⟨hbusy, hback⟩ := not_or.1 (mt timeLegal_iff.2 hillegal)
  obtain ⟨_, _, hrefused⟩ := refusedForms s
  have hrefused (lvl : Level) := hrefused now lvl hbusy (Nat.not_le.1 hback)
  cases i with
  | edge ts lvl =>
    obtain ⟨hedge, _, _⟩ := hrefused lvl
    cases htime
    exact hedge
  | idleCheck ts =>
    obtain ⟨_, hcheck, _⟩ := hrefused .off
    cases htime
    exact hcheck
  | sample ts lvl =>
    obtain ⟨_, _, hsample⟩ := hrefused lvl
    cases htime
    exact hsample
  | _ => cases htime

theorem safeOutcome_of_completes {r : Result} (h : ∃ t, r = .next t) : SafeOutcome r := by
  obtain ⟨t, rfl⟩ := h
  exact trivial

/-- An operation with a code completes or is refused for the clock alone. -/
theorem exec_safeOutcome {i : Instr} {x : Input} (hcode : encode i = some x) (s : State) : SafeOutcome (exec i s) := by
  by_cases hlegal : ∀ now, timeOperand i = some now → timeLegal s now = true
  · exact safeOutcome_of_completes (exec_completes hcode hlegal)
  · push Not at hlegal
    obtain ⟨now, htime, hillegal⟩ := hlegal
    rw [exec_backwards htime hillegal]
    rfl

/-- Settles O48: TX_STEP finds its pulse by the invariants, and of the inputs only the timed ones can be refused. -/
theorem onlyABackwardClockStops : Obligations.OnlyABackwardClockStops := by
  intro s hs
  obtain ⟨_, hstep⟩ | ⟨rest, _, hstep⟩ | ⟨x, rest, hturns, hstep⟩ | ⟨rest, _, hstep⟩ |
    ⟨ts, lvl, rest, hturns, hstep⟩ := step_cases s <;> rw [hstep]
  · have hown := ownStep_completes hs
    exact ⟨safeOutcome_of_completes hown, fun _ => hown⟩
  · have hown := ownStep_completes (hs.withTurns rest)
    exact ⟨safeOutcome_of_completes hown, fun _ => hown⟩
  · obtain ⟨y, hcode⟩ := encode_decode_isSome x
    refine ⟨exec_safeOutcome hcode _, fun hclock => exec_completes hcode fun now htime => ?_⟩
    exact timeLegal_iff.2 (hclock now ((nextTime_input hturns).trans htime))
  · exact ⟨trivial, fun _ => ⟨_, rfl⟩⟩
  · refine ⟨exec_safeOutcome (i := .idleCheck ts) rfl _, fun hclock => ?_⟩
    exact idleCheckOp_legal.2 (timeLegal_iff.2 (hclock ts (nextTime_edgeWithCheck hturns)))

end Sys2Proof.Machine
end

section
/-! PROOFS. The family 43_decoder.md: what the Decoder answers in each of its cases, and what becomes of a transmitted
packet, as it was sent and with a payload bit flipped. -/

namespace Sys2Proof.Machine

/-! ### The tests of Decode in their order (43_decoder.md R180 to R189) -/

/-- Bytes that hold a length byte hold the four bytes of a signature before it. -/
theorem eq_cons_of_declared {b : List Byte} {len : Byte} (h : b[4]? = some len) :
    ∃ b0 b1 b2 b3 rest, b = b0 :: b1 :: b2 :: b3 :: len :: rest := by
  match b with
  | b0 :: b1 :: b2 :: b3 :: l :: rest =>
    obtain rfl : l = len := Option.some.inj h
    exact ⟨b0, b1, b2, b3, rest, rfl⟩
  | [] | [_] | [_, _] | [_, _, _] | [_, _, _, _] => cases h

theorem sigBytes_eq_iff {b0 b1 b2 b3 : Byte} {g : Sig} : [b0, b1, b2, b3] = sigBytes g ↔ ⟨b0, b1, b2, b3⟩ = g := by
  obtain ⟨g0, g1, g2, g3⟩ := g
  simp [sigBytes]

/-- The tests after the first, by the positions of the spec: the length at 4, the payload from 5, then the checksum. -/
theorem decodeBytes_declared {b : List Byte} {len : Byte} (c : Cfg) (h : b[4]? = some len) :
    decodeBytes c b =
      if b.length < 6 + len.toNat then .error .truncatedFrame
      else if b.take 4 ≠ sigBytes c.signature then .error .signatureMismatch
      else if b[5 + len.toNat]? = some (xorReduce (cipher c.cipherKey ((b.drop 5).take len.toNat))) then
        .ok c.signature len (cipher c.cipherKey ((b.drop 5).take len.toNat))
      else .error .checksumMismatch := by
  obtain ⟨b0, b1, b2, b3, rest, rfl⟩ := eq_cons_of_declared h
  have htake : (b0 :: b1 :: b2 :: b3 :: len :: rest).take 4 = [b0, b1, b2, b3] := rfl
  have hdrop : (b0 :: b1 :: b2 :: b3 :: len :: rest).drop 5 = rest := rfl
  have hchk : (b0 :: b1 :: b2 :: b3 :: len :: rest)[5 + len.toNat]? = rest[len.toNat]? := by
    rw [Nat.add_comm]; rfl
  rw [decodeBytes, htake, hdrop, hchk]
  simp only [ne_eq, sigBytes_eq_iff]
  by_cases hsig : (⟨b0, b1, b2, b3⟩ : Sig) = c.signature
  · rw [hsig]
  · simp only [hsig, not_false_eq_true, if_true]

theorem decodeBytes_undeclared {b : List Byte} (c : Cfg) (h : b.length < 5) :
    decodeBytes c b = .error .truncatedFrame := by
  match b with
  | [] | [_] | [_, _] | [_, _, _] | [_, _, _, _] => rfl
  | _ :: _ :: _ :: _ :: _ :: rest => exact absurd h (by simp)

theorem decodeFrame_malformed {c : Cfg} {pre : Nat} {samples : List Nat} (h : demodulate c pre samples = none) :
    decodeFrame c pre samples = .error .malformedBitstream := by
  rw [decodeFrame, h]

theorem decodeFrame_bytes {c : Cfg} {pre : Nat} {samples : List Nat} {b : List Byte}
    (h : demodulate c pre samples = some b) : decodeFrame c pre samples = decodeBytes c b := by
  rw [decodeFrame, h]

/-- Settles O27: each case fails or passes the tests before its own. -/
theorem decodeResultInOrder : Obligations.DecodeResultInOrder := by
  refine fun s pre samples => ⟨_, rfl, rfl, decodeFrame_malformed, fun b hb => ?_⟩
  rw [decodeFrame_bytes hb]
  refine ⟨decodeBytes_undeclared s.cfg, fun len hlen => ?_⟩
  rw [decodeBytes_declared s.cfg hlen]
  refine ⟨fun hshort => if_pos hshort, fun henough hsig => ?_, fun henough hsig pay hpay => ?_⟩
  · rw [if_neg henough.not_gt, if_pos hsig]
  · subst hpay
    rw [if_neg henough.not_gt, if_neg (not_not_intro hsig)]
    exact ⟨fun hchk => if_neg hchk, fun hchk => if_pos hchk⟩

/-- Settles O28: every position a test reads lies before the appended bytes. -/
theorem bytesBeyondThePacketIgnored : Obligations.BytesBeyondThePacketIgnored := by
  intro c b extra len hlen henough
  have hlen' : (b ++ extra)[4]? = some len := by rwa [List.getElem?_append_left (by omega)]
  have hlong : 6 + len.toNat ≤ (b ++ extra).length := by rw [List.length_append]; omega
  have hsig : (b ++ extra).take 4 = b.take 4 := List.take_append_of_le_length (by omega)
  have hpay : ((b ++ extra).drop 5).take len.toNat = (b.drop 5).take len.toNat := by
    rw [List.drop_append_of_le_length (by omega), List.take_append_of_le_length (by rw [List.length_drop]; omega)]
  have hchk : (b ++ extra)[5 + len.toNat]? = b[5 + len.toNat]? := List.getElem?_append_left (by omega)
  rw [decodeBytes_declared c hlen, decodeBytes_declared c hlen', hsig, hpay, hchk, if_neg henough.not_gt,
    if_neg hlong.not_gt]

/-! ### A transmitted packet (43_decoder.md R191, R192) -/

/-- Settles O29: the pulses give back the wire bytes, and the wire bytes the payload. -/
theorem roundTrip : Obligations.RoundTrip := fun c _ hsl hp =>
  ⟨tPre c, _, rfl, (decodeFrame_pulses hsl _).trans (decodeBytes_encodePacket c hp)⟩

/-- With the configured signature and the right length, only the checksum is left to fail. -/
theorem decodeBytes_wireBytes_checksumMismatch {c : Cfg} {q : Packet} (hsig : q.sig = c.signature)
    (hlen : q.pay.length = q.len.toNat) (hchk : q.chk ≠ xorReduce (cipher c.cipherKey q.pay)) :
    decodeBytes c (wireBytes q) = .error .checksumMismatch := by
  have hdeclared : (wireBytes q)[4]? = some q.len := rfl
  have hlong : ¬ (wireBytes q).length < 6 + q.len.toNat := by rw [wireBytes_length]; omega
  have htake : (wireBytes q).take 4 = sigBytes c.signature := by rw [← hsig]; rfl
  have hdrop : (wireBytes q).drop 5 = q.pay ++ [q.chk] := by simp [wireBytes, sigBytes]
  have hpay : ((wireBytes q).drop 5).take q.len.toNat = q.pay := by rw [hdrop, List.take_left' hlen]
  have hlast : (wireBytes q)[5 + q.len.toNat]? = some q.chk := by
    rw [← List.getElem?_drop, hdrop, ← hlen, List.getElem?_concat_length]
  rw [decodeBytes_declared c hdeclared, if_neg hlong, if_neg (not_not_intro htake), hpay, hlast,
    if_neg fun h => hchk (Option.some.inj h)]

/-- The checksum of the plaintext no longer fits once a bit of the ciphered payload is flipped: the deciphered payload
has that bit flipped, and so has its reduction. -/
theorem xorReduce_flipped_ne {key : Vector Byte 16} {p : List Byte} {i k : Nat} (hi : i < p.length) (hk : k < 8) :
    xorReduce p ≠ xorReduce (cipher key ((cipher key p).modify i fun b => b ^^^ BitVec.twoPow 8 k)) := by
  rw [cipher_modify, cipher_cipher, xorReduce_modify p i _ hi]
  intro heq
  have hbit := congrArg (BitVec.getLsbD · k) heq
  simp [hk] at hbit

/-- Settles O30: signature and length pass their tests, the checksum does not. -/
theorem flippedPayloadBitIsCaught : Obligations.FlippedPayloadBitIsCaught := by
  rintro c p i k hsl hp hi hk q rfl
  refine ⟨tPre c, _, rfl, (decodeFrame_pulses hsl _).trans ?_⟩
  refine decodeBytes_wireBytes_checksumMismatch rfl ?_ (xorReduce_flipped_ne hi hk)
  rw [List.length_modify, cipher_length]
  exact (encodePacket_len c hp).symm

end Sys2Proof.Machine
end

section
/-! PROOFS. The family 44_system_ops.md: RESET and RES_ACK, what the host reads, and the configuration that nothing
writes. -/

namespace Sys2Proof.Machine

/-! ### The configuration (44_system_ops.md R205, 10_state.md R22) -/

theorem exec_transmitOp_cfg {i : Instr} {s t : State} (h : exec i s = .next t) (hi : transmitOp i = true) :
    t.cfg = s.cfg := by
  obtain ⟨_, hcfg, _⟩ := receiveSide_eq_iff.1 (exec_transmitOp_receiveSide h hi)
  exact hcfg

theorem exec_receiveOp_cfg {j : Instr} {s t : State} (h : exec j s = .next t) (hj : receiveOp j = true) :
    t.cfg = s.cfg := by
  obtain ⟨_, hcfg, _⟩ := transmitSide_eq_iff.1 (exec_receiveOp_transmitSide (k := false) h hj nofun)
  exact hcfg

@[simp] theorem bitPulses_cfg (bits : List Bool) (s : State) : (bitPulses bits s).cfg = s.cfg := by
  rw [bitPulses_eq]

/-- A pipeline's operation leaves the other side as it was, and each side carries the configuration; RESET gives the
registers the values of a block built with the same configuration, and the rest write no more than a pulse, an answer or
a returned value. -/
theorem exec_cfg {i : Instr} {s t : State} (h : exec i s = .next t) : t.cfg = s.cfg := by
  cases i with
  | encode | modulate | replay | cancel | txStep | emitDone | emitFail => exact exec_transmitOp_cfg h rfl
  | edge | idleCheck | sample | resAck => exact exec_receiveOp_cfg h rfl
  | reset =>
    cases h
    exact resetBlock_cfg s
  | demodulate seq =>
    obtain ⟨v, rfl⟩ := execDemodulate_next h
    rfl
  | decode pre samples =>
    cases h
    rfl
  | emit lvl d =>
    obtain ⟨_, rfl⟩ := execEmit_next h
    exact out_cfg s _
  | cmdReserved op =>
    cases h
    exact answer_cfg s _ _
  | evtReserved ev =>
    cases h
    rfl
  | packet pkt =>
    cases h
    exact bitPulses_cfg _ s
  | start | bit0 | bit1 =>
    cases h
    exact pulseAt_cfg s _ _

theorem ownStep_cfg {s t : State} (h : ownStep s = .next t) : t.cfg = s.cfg := by
  cases hready : txReady s with
  | false =>
    cases (ownStep_of_not_ready hready).symm.trans h
    rfl
  | true => exact exec_cfg ((ownStep_of_ready hready).symm.trans h)

/-- By the kind of the turn: each is an operation, the reset, or nothing at all. -/
theorem step_cfg {s t : State} (h : step s = .next t) : t.cfg = s.cfg := by
  obtain ⟨_, hstep⟩ | ⟨rest, _, hstep⟩ | ⟨x, rest, _, hstep⟩ | ⟨rest, _, hstep⟩ | ⟨ts, lvl, rest, _, hstep⟩ :=
    step_cases s
  · exact ownStep_cfg (hstep.symm.trans h)
  · exact ownStep_cfg (s := { s with turns := rest }) (hstep.symm.trans h)
  · exact exec_cfg (s := { s with turns := rest }) (hstep.symm.trans h)
  · cases hstep.symm.trans h
    exact resetBlock_cfg { s with turns := rest }
  · exact exec_cfg (s := { s with turns := .input (.event 0x1#3 ts lvl) :: rest }) (hstep.symm.trans h)

/-- Settles O49: a step is made of operations and the reset. -/
theorem configurationIsNeverWritten : Obligations.ConfigurationIsNeverWritten :=
  ⟨fun _ _ _ => exec_cfg, fun _ _ => step_cfg⟩

/-! ### RES_ACK and RESET (44_system_ops.md R200, R202) -/

/-- Settles O41: `answer` writes `cmd_status` and the history, RES_ACK itself `res_valid`. -/
theorem resAckResult : Obligations.ResAckResult := fun _ => rfl

theorem exec_reset (s : State) : exec .reset s = .next (answer .reset .ok (resetBlock s)) := rfl

@[simp] theorem statusWord_answer (c : Instr) (st : Status) (s : State) : statusWord (answer c st s) = statusWord s :=
  rfl

@[simp] theorem statusWord_resetBlock (s : State) : statusWord (resetBlock s) = 0x00#8 := by
  have hbusy : txBusy (resetBlock s) = false := rfl
  have hfault : txFaulted (resetBlock s) = false := rfl
  simp [statusWord, rxStateCode, hbusy, hfault]

/-- The answer `Ok` is the reset value of `cmd_status`, so it shows in the history alone. -/
theorem answer_resetBlock_registers (c : Instr) (s : State) :
    { answer c .ok (resetBlock s) with hist := [] } = { resetBlock s with hist := [] } := rfl

/-- Settles O42: the command is the reset of the block and its answer; the registers are read off `resetBlock`. -/
theorem resetResult : Obligations.ResetResult := by
  refine fun s => ⟨_, exec_reset s, ⟨?_, resetBlock_hist s⟩, answer_resetBlock_registers .reset s, ?_⟩
  · rw [answer_hist, resetBlock_hist, cancelEvents]
  · simp

/-! ### What the host reads (44_system_ops.md R203, 10_state.md R37, R46) -/

theorem resultReadable_iff {s : State} : resultReadable s = true ↔ s.resValid = true ∧ s.resStatus = .ok := by
  simp [resultReadable]

/-- With no decoded packet in them the content registers have no reading (10_state.md R37). -/
theorem readResContent_none {s : State} (h : ¬ resultReadable s = true) :
    readResSig s = none ∧ readResLen s = none ∧ readResPay s = none :=
  ⟨if_neg h, if_neg h, if_neg h⟩

theorem readResContent_some {s : State} (h : resultReadable s = true) :
    readResSig s = some s.resSig ∧ readResLen s = some s.resLen ∧ readResPay s = some s.resPay :=
  ⟨if_pos h, if_pos h, if_pos h⟩

/-- Settles O45: the valid bit decides each read, and with it `res_status` those of the decoded packet. -/
theorem noValueIsNotRead : Obligations.NoValueIsNotRead := by
  refine fun s => ⟨fun hpkt => if_pos hpkt, fun hnone => if_neg (ne_true_of_eq_false hnone),
    fun hres => ⟨if_pos hres, if_pos hres, if_pos hres, if_pos hres⟩,
    fun hres hok => readResContent_some (resultReadable_iff.2 ⟨hres, hok⟩), fun hnone => ?_, fun hbad => ?_⟩
  · have hinvalid : ¬ s.resValid = true := ne_true_of_eq_false hnone
    exact ⟨if_neg hinvalid, if_neg hinvalid, if_neg hinvalid, if_neg hinvalid,
      readResContent_none fun hread => hinvalid (resultReadable_iff.1 hread).1⟩
  · exact readResContent_none fun hread => hbad (resultReadable_iff.1 hread).2

end Sys2Proof.Machine
end

section
/-! PROOFS. The family 60_exceptions.md: a frame that does not decode, and the output history that only grows. -/

namespace Sys2Proof.Machine

/-! ### A frame that does not decode (60_exceptions.md R222 to R224) -/

/-- The content registers are left existential: they hold no defined value (10_state.md R37). -/
theorem completeFrame_failed {s : State} {e : DecodeError} (hhand : handOffCondition s = true)
    (hdec : decodeFrame s.cfg s.rxPre s.rxSamples = .error e) :
    ∃ sig len pay n, completeFrame s =
      frameReset (recordFrame (.error e) { s with resSig := sig, resLen := len, resPay := pay, draws := n }) := by
  obtain ⟨_, _, _, hok, _⟩ | ⟨e', sig, len, pay, herr, _, hoff⟩ := handOff_cases s
  · exact absurd (hdec.symm.trans hok) nofun
  · obtain rfl : e = e' := DecodeResult.error.inj (hdec.symm.trans herr)
    exact ⟨sig, len, pay, s.draws + 1, by rw [completeFrame, if_pos hhand, hoff]⟩

/-- Settles O35: the frame is handed over as one that decodes is, and the frame reset follows all the same;
`recordFrame` and `frameReset` write the fields the statement lists. -/
theorem handOffOfFailedFrame : Obligations.HandOffOfFailedFrame := by
  intro s now e hbusy hts hgap hmin hpre hoverflow hdec
  have hhand : handOffCondition s = true := handOffCondition_iff.2 ⟨hmin, hpre, hoverflow⟩
  obtain ⟨sig, len, pay, n, hframe⟩ := completeFrame_failed hhand hdec
  exact ⟨sig, len, pay, n, (idleCheckOp_timedOut hbusy (by omega)).trans (congrArg Host.Outcome.next hframe)⟩

/-! ### The output history (60_exceptions.md R216). That it grows is that the old one is a prefix, `<+:`. -/

theorem hist_prefix_of_emitsNothing {s t : State} (h : EmitsNothing s t) : s.hist <+: t.hist := by
  obtain ⟨es, hes, _⟩ := h
  exact List.prefix_iff_exists_eq_append.2 ⟨es, hes⟩

theorem hist_prefix_pulseAt (lvl : Level) (d : Nat) (s : State) : s.hist <+: (pulseAt lvl d s).hist :=
  List.prefix_append _ _

theorem hist_prefix_bitPulses (bits : List Bool) (s : State) : s.hist <+: (bitPulses bits s).hist := by
  rw [bitPulses_eq]
  exact List.prefix_append _ _

/-- An operation with a code appends events that are no Emit; of the others, those that issue pulses append their Emits,
and the two functions write no history. -/
theorem exec_hist_prefix {i : Instr} {s t : State} (h : exec i s = .next t) : s.hist <+: t.hist := by
  cases hcode : encode i with
  | some x => exact hist_prefix_of_emitsNothing (exec_emitsNothing hcode h)
  | none =>
    cases i with
    | txStep =>
      obtain ⟨_, d, _, rfl⟩ := execTxStep_next.1 h
      exact hist_prefix_pulseAt _ d s
    | demodulate seq =>
      obtain ⟨v, rfl⟩ := execDemodulate_next h
      exact List.prefix_rfl
    | decode pre samples =>
      cases h
      exact List.prefix_rfl
    | emit lvl d =>
      obtain ⟨_, rfl⟩ := execEmit_next h
      exact List.prefix_append _ _
    | packet pkt =>
      cases h
      exact hist_prefix_bitPulses _ s
    | start | bit0 | bit1 =>
      cases h
      exact hist_prefix_pulseAt _ _ s
    | _ => cases hcode

theorem ownStep_hist_prefix {s t : State} (h : ownStep s = .next t) : s.hist <+: t.hist := by
  cases hready : txReady s with
  | false =>
    cases (ownStep_of_not_ready hready).symm.trans h
    exact List.prefix_rfl
  | true => exact exec_hist_prefix ((ownStep_of_ready hready).symm.trans h)

/-- Taking a turn off the list writes no history, and the reset appends at most an `EmitCancel`. -/
theorem step_hist_prefix {s t : State} (h : step s = .next t) : s.hist <+: t.hist := by
  obtain ⟨_, hstep⟩ | ⟨rest, _, hstep⟩ | ⟨x, rest, _, hstep⟩ | ⟨rest, _, hstep⟩ | ⟨ts, lvl, rest, _, hstep⟩ :=
    step_cases s
  · exact ownStep_hist_prefix (hstep.symm.trans h)
  · exact ownStep_hist_prefix (s := { s with turns := rest }) (hstep.symm.trans h)
  · exact exec_hist_prefix (s := { s with turns := rest }) (hstep.symm.trans h)
  · cases hstep.symm.trans h
    exact hist_prefix_of_emitsNothing (emitsNothing_resetBlock { s with turns := rest })
  · exact exec_hist_prefix (s := { s with turns := .input (.event 0x1#3 ts lvl) :: rest }) (hstep.symm.trans h)

/-- Settles O53: the old history is a prefix of the new one, so what stands after it is what was appended. -/
theorem historyOnlyGrows : Obligations.HistoryOnlyGrows :=
  ⟨fun _ _ _ h => List.prefix_iff_exists_eq_append.1 (exec_hist_prefix h),
    fun _ _ h => List.prefix_iff_exists_eq_append.1 (step_hist_prefix h)⟩

end Sys2Proof.Machine
end

section
/-! PROOFS. The family 70_reset_and_hazards.md: the state a run starts from (R241). -/

namespace Sys2Proof.Machine

/-- A run starts from the values RESET gives the registers, under every configuration: resetting a block that was just
reset changes nothing, the history included, since no Emit is outstanding. -/
theorem resetBlock_resetFor (c : Cfg) : resetBlock (State.resetFor c) = State.resetFor c := rfl

/-- Settles O43: the state after reset is its own reset, so the lemmas of `resetBlock` say each
register's value. -/
theorem stateAfterReset : Obligations.StateAfterReset := by
  have hreset : State.reset = resetBlock State.reset := (resetBlock_resetFor Config.built).symm
  unfold Obligations.StateAfterReset
  rw [hreset]
  simp

end Sys2Proof.Machine
end
